-- ==== Sys2Proof/Word.lean ====
section
/-! DEFINITION. The plain data every other file is written over: bytes, a memory as a sorted list of cells, and decode
tables. The spec's numbers are naturals (00_scope.md R9, D27), so there is no machine word type beyond the byte. -/

namespace Sys2Proof

/-- A byte (20_memory.md R60: "a byte being 8 bits"). -/
abbrev Byte := BitVec 8

/-- A byte-addressed memory: the cells that differ from 0, addresses strictly rising (Machine/Memory.lean). -/
abbrev Memory := List Host.Cell

/-- One entry of a decode table: the key `(len, val)` and its symbol (10_state.md R33). -/
structure Code where
  /-- Bit length of the code. -/
  len : Nat
  /-- Code value, the earliest stream bit its highest bit (20_memory.md R64). -/
  val : Nat
  /-- The symbol the key maps to. -/
  sym : Nat
deriving DecidableEq, Repr

/-- "an immutable mapping from (bit-length, code-value) pairs to symbols" (10_state.md R33), as its list of entries. -/
abbrev Table := List Code

end Sys2Proof
end

