-- ==== Sys2Proof/Config.lean ====
section
/-! DEFINITION. The constants of 00_scope.md R7. No value of this hardware is left free by its spec, so this file holds
no opaque constant. -/

namespace Sys2Proof.Config

/-- `WSIZE`: size in bytes of the sliding window (R7, D16). -/
def windowSize : Nat := 32768

/-- `MAXBITS`: longest code length of a literal/length or distance table (R7). -/
def maxBits : Nat := 15

/-- `META_MAXBITS`: longest code length of the meta table (R7). -/
def metaMaxBits : Nat := 7

/-- `RB_MAX`: largest `n` of `readBits(n)` the core issues (R7). -/
def readBitsMax : Nat := 16

/-- `NMETA`: size of the meta-alphabet (R7). -/
def metaSize : Nat := 19

/-- `NLL_MAX`: size of the literal/length alphabet (R7). -/
def litLenMax : Nat := 288

/-- `ND_MAX`: size of the distance alphabet (R7). -/
def distMax : Nat := 32

/-- `SINGLE_SYMBOL_BOTH_BITS` (R7, D9): the one-symbol edge case of the table builder. -/
def singleSymbolBothBits : Bool := true

end Sys2Proof.Config
end

