-- ==== Sys2Proof/Syntax.lean ====
section
/-! DEFINITION. The instruction set: one constructor per row of spec/opcode_table.json. An instruction is one element of
the DEFLATE stream (00_scope.md R2), its opcode the 3-bit header value or the decoded symbol number (30_encoding.md
R114). The operands that follow an opcode in the stream (LEN and NLEN, the dynamic header, extra bits) are read by the
meaning, where the spec's pseudocode reads them: CL16's emptiness test comes before its read (43_codelength_rle.md
R183). -/

namespace Sys2Proof

/-- The formats of 30_encoding.md R114: what an opcode number is a number of. -/
inductive Format where
  /-- The 3-bit block header value `h = BFINAL | BTYPE << 1` (R91). -/
  | blkhdr
  /-- A decoded meta symbol, 0..18 (R96). -/
  | clsym
  /-- A decoded literal/length symbol, 0..287 (R98). -/
  | llsym
  /-- A decoded distance symbol, 0..31 (R98). -/
  | dsym
  /-- The raw byte of a stored body, selected by the phase and by no bits (R114). -/
  | raw
deriving DecidableEq, Repr

/-- The stream elements. -/
inductive Instr where
  /-- `BLOCK STORED`, BTYPE 0 (44_block.md R201, R206). -/
  | blockStored (bfinal : Bool)
  /-- `BLOCK FIXED`, BTYPE 1 (44_block.md R201, R208). -/
  | blockFixed (bfinal : Bool)
  /-- `BLOCK DYNAMIC`, BTYPE 2 (44_block.md R201, R210). -/
  | blockDynamic (bfinal : Bool)
  /-- `BLOCK RESERVED`, BTYPE 3 (44_block.md R204). -/
  | blockReserved (bfinal : Bool)
  /-- The raw byte of a stored body, or the end of the body (44_block.md R207). -/
  | raw
  /-- `CL n`, meta symbols 0..15 (43_codelength_rle.md R182). -/
  | clN (n : Nat)
  /-- `CL16`: repeat the preceding length (R183). -/
  | cl16
  /-- `CL17`: repeat length 0, 3 to 10 times (R184). -/
  | cl17
  /-- `CL18`: repeat length 0, 11 to 138 times (R185). -/
  | cl18
  /-- `LIT b`: literal byte, symbols 0..255 (45_inflate.md R232). -/
  | lit (b : Byte)
  /-- `EOB`: end of block, symbol 256 (R233). -/
  | eob
  /-- Length symbol 257: first half of a `MATCH` (R234). -/
  | len257
  /-- Length symbol 258: first half of a `MATCH` (R234). -/
  | len258
  /-- Length symbol 259: first half of a `MATCH` (R234). -/
  | len259
  /-- Length symbol 260: first half of a `MATCH` (R234). -/
  | len260
  /-- Length symbol 261: first half of a `MATCH` (R234). -/
  | len261
  /-- Length symbol 262: first half of a `MATCH` (R234). -/
  | len262
  /-- Length symbol 263: first half of a `MATCH` (R234). -/
  | len263
  /-- Length symbol 264: first half of a `MATCH` (R234). -/
  | len264
  /-- Length symbol 265: first half of a `MATCH` (R234). -/
  | len265
  /-- Length symbol 266: first half of a `MATCH` (R234). -/
  | len266
  /-- Length symbol 267: first half of a `MATCH` (R234). -/
  | len267
  /-- Length symbol 268: first half of a `MATCH` (R234). -/
  | len268
  /-- Length symbol 269: first half of a `MATCH` (R234). -/
  | len269
  /-- Length symbol 270: first half of a `MATCH` (R234). -/
  | len270
  /-- Length symbol 271: first half of a `MATCH` (R234). -/
  | len271
  /-- Length symbol 272: first half of a `MATCH` (R234). -/
  | len272
  /-- Length symbol 273: first half of a `MATCH` (R234). -/
  | len273
  /-- Length symbol 274: first half of a `MATCH` (R234). -/
  | len274
  /-- Length symbol 275: first half of a `MATCH` (R234). -/
  | len275
  /-- Length symbol 276: first half of a `MATCH` (R234). -/
  | len276
  /-- Length symbol 277: first half of a `MATCH` (R234). -/
  | len277
  /-- Length symbol 278: first half of a `MATCH` (R234). -/
  | len278
  /-- Length symbol 279: first half of a `MATCH` (R234). -/
  | len279
  /-- Length symbol 280: first half of a `MATCH` (R234). -/
  | len280
  /-- Length symbol 281: first half of a `MATCH` (R234). -/
  | len281
  /-- Length symbol 282: first half of a `MATCH` (R234). -/
  | len282
  /-- Length symbol 283: first half of a `MATCH` (R234). -/
  | len283
  /-- Length symbol 284: first half of a `MATCH` (R234). -/
  | len284
  /-- Length symbol 285: first half of a `MATCH` (R234). -/
  | len285
  /-- Reserved literal/length symbol 286 (R235). -/
  | llrsv286
  /-- Reserved literal/length symbol 287 (R235). -/
  | llrsv287
  /-- Distance symbol 0: second half of a `MATCH` (R234). -/
  | dist0
  /-- Distance symbol 1: second half of a `MATCH` (R234). -/
  | dist1
  /-- Distance symbol 2: second half of a `MATCH` (R234). -/
  | dist2
  /-- Distance symbol 3: second half of a `MATCH` (R234). -/
  | dist3
  /-- Distance symbol 4: second half of a `MATCH` (R234). -/
  | dist4
  /-- Distance symbol 5: second half of a `MATCH` (R234). -/
  | dist5
  /-- Distance symbol 6: second half of a `MATCH` (R234). -/
  | dist6
  /-- Distance symbol 7: second half of a `MATCH` (R234). -/
  | dist7
  /-- Distance symbol 8: second half of a `MATCH` (R234). -/
  | dist8
  /-- Distance symbol 9: second half of a `MATCH` (R234). -/
  | dist9
  /-- Distance symbol 10: second half of a `MATCH` (R234). -/
  | dist10
  /-- Distance symbol 11: second half of a `MATCH` (R234). -/
  | dist11
  /-- Distance symbol 12: second half of a `MATCH` (R234). -/
  | dist12
  /-- Distance symbol 13: second half of a `MATCH` (R234). -/
  | dist13
  /-- Distance symbol 14: second half of a `MATCH` (R234). -/
  | dist14
  /-- Distance symbol 15: second half of a `MATCH` (R234). -/
  | dist15
  /-- Distance symbol 16: second half of a `MATCH` (R234). -/
  | dist16
  /-- Distance symbol 17: second half of a `MATCH` (R234). -/
  | dist17
  /-- Distance symbol 18: second half of a `MATCH` (R234). -/
  | dist18
  /-- Distance symbol 19: second half of a `MATCH` (R234). -/
  | dist19
  /-- Distance symbol 20: second half of a `MATCH` (R234). -/
  | dist20
  /-- Distance symbol 21: second half of a `MATCH` (R234). -/
  | dist21
  /-- Distance symbol 22: second half of a `MATCH` (R234). -/
  | dist22
  /-- Distance symbol 23: second half of a `MATCH` (R234). -/
  | dist23
  /-- Distance symbol 24: second half of a `MATCH` (R234). -/
  | dist24
  /-- Distance symbol 25: second half of a `MATCH` (R234). -/
  | dist25
  /-- Distance symbol 26: second half of a `MATCH` (R234). -/
  | dist26
  /-- Distance symbol 27: second half of a `MATCH` (R234). -/
  | dist27
  /-- Distance symbol 28: second half of a `MATCH` (R234). -/
  | dist28
  /-- Distance symbol 29: second half of a `MATCH` (R234). -/
  | dist29
  /-- Reserved distance symbol 30 (R236). -/
  | drsv30
  /-- Reserved distance symbol 31 (R236). -/
  | drsv31
deriving DecidableEq, Repr

end Sys2Proof
end

