-- ==== Sys2Proof/Machine/State.lean ====
section
/-! DEFINITION. The state of the core as plain data (10_state.md), the reasons a step can stop, and the state after reset
(10_state.md R41). Every piece of state the spec names is a field; STATUS, ERR_POS, END_POS, OUT_COUNT and OUT are views
of it (Machine/Flags.lean, Machine/HostPort.lean). -/

namespace Sys2Proof.Machine

/-- `phase`, the state of the block-type state machine (10_state.md R24). -/
inductive Phase where
  /-- Reset state; no run. -/
  | idle
  /-- Next in the stream is a 3-bit block header. -/
  | awaitingHeader
  /-- The header said stored; LEN and NLEN not yet read. -/
  | stored
  /-- The header said fixed; tables not yet selected. -/
  | fixedTables
  /-- The header said dynamic; tables not yet built. -/
  | dynamicTables
  /-- Block body: symbols, or raw bytes, until the end of the block. -/
  | decoding
  /-- The block whose final flag was set has ended; terminal. -/
  | done
  /-- An error was raised; terminal. -/
  | failed
deriving DecidableEq, Repr

/-- `err`, the error kinds of 60_exceptions.md R262. -/
inductive ErrKind where
  /-- Code 0: no error. -/
  | noError
  /-- Code 1: the collaborator's, never raised by the core (R261). -/
  | malformedHeader
  /-- Code 2: block type 3 (44_block.md R204). -/
  | unsupportedBlockType
  /-- Code 3: LEN and NLEN are no complements (44_block.md R206). -/
  | malformedStoredBlock
  /-- Code 4: an over-subscribed code-length array (41_huffman_build.md R154). -/
  | invalidCodeLengths
  /-- Code 5: CL16 with no preceding value (43_codelength_rle.md R183). -/
  | invalidRunLength
  /-- Code 6: the guard of 43_codelength_rle.md R181, reached by no input (R187). -/
  | invalidEncoding
  /-- Code 7: a distance beyond the bytes produced (45_inflate.md R234). -/
  | invalidBackReference
  /-- Code 8: the input ends inside a read (40_bitreader.md R132). -/
  | unexpectedEndOfStream
  /-- Code 9: a reserved symbol (45_inflate.md R235, R236). -/
  | invalidSymbol
deriving DecidableEq, Repr

/-- The working registers of 10_state.md R28, live inside one step only (R20, R21). -/
structure Work where
  /-- `hval`: running Huffman prefix value. -/
  hval : Nat
  /-- `hcnt`: number of bits in `hval`. -/
  hcnt : Nat
  /-- `sym`: the literal/length symbol. -/
  sym : Nat
  /-- `len`: the match length. -/
  len : Nat
  /-- `dsym`: the distance symbol. -/
  dsym : Nat
  /-- `dist`: the match distance. -/
  dist : Nat
  /-- `LEN` of a stored header. -/
  lenField : BitVec 16
  /-- `NLEN` of a stored header. -/
  nlenField : BitVec 16
  /-- `hlit`. -/
  hlit : Nat
  /-- `hdist`. -/
  hdist : Nat
  /-- `hclen`. -/
  hclen : Nat
  /-- `ml[0..18]`: the meta code lengths. -/
  ml : List Nat
  /-- `META`: the meta table. -/
  metaTable : Table
  /-- `arr`: the code-length array under construction. -/
  arr : List Nat
  /-- `ll`: the literal/length code lengths. -/
  ll : List Nat
  /-- `dl`: the distance code lengths. -/
  dl : List Nat
deriving DecidableEq, Repr

/-- The state of the core (10_state.md R20). -/
structure State where
  /-- `in`: the input bytes (launch parameter; the core never writes it). -/
  inMem : Memory
  /-- `IN_LEN` (launch parameter). -/
  inLen : Nat
  /-- `START` (launch parameter). -/
  start : Nat
  /-- `CTRL.GO`: a start command the core has not yet taken (R38; log 5). -/
  ctrlGo : Bool
  /-- `CTRL.RST`: a reset command the core has not yet taken (R38; log 5). -/
  ctrlRst : Bool
  /-- `pos`: the bit cursor (R22). -/
  pos : Nat
  /-- `phase` (R24). -/
  phase : Phase
  /-- `bfinal` (R25). -/
  bfinal : Bool
  /-- `btype` (R25). -/
  btype : BitVec 2
  /-- `raw_rem`: raw bytes of the stored body still to copy (R28). -/
  rawRem : Nat
  /-- `LT`: the literal/length table (R34). -/
  lt : Table
  /-- `DT`: the distance table (R34). -/
  dt : Table
  /-- `out`: the output buffer (R30). -/
  out : Memory
  /-- `out_count` (R30). -/
  outCount : Nat
  /-- `err` (R26). -/
  err : ErrKind
  /-- `err_pos` (R26). -/
  errPos : Nat
  /-- `end_pos` (R39). -/
  endPos : Nat
  /-- `win[0 .. WSIZE-1]`: the circular window of a realisation (R31; log 8). -/
  win : Memory
  /-- `wp`: the window's write pointer (R31; log 8). -/
  wp : Nat
  /-- The working registers (R28). -/
  work : Work
deriving DecidableEq, Repr

/-- The faults: where the core has no step. An error of the spec is none of them: it is a next state in `phase = Failed`
(60_exceptions.md R266). -/
inductive Fault where
  /-- Raised by fetch in Idle, Done and Failed, where "the core has no step (only a host command moves it)" (44_block.md
  R200), and in Decoding with BTYPE 3, which no rule enters. Safe: the model stops where the hardware stands still. -/
  | noStep (p : Phase)
  /-- Raised by fetch and by the code-length loop for a symbol number of no element, which no table that `build` makes
  can return (R231 "The four cases are exhaustive"). Safe: the model stops in a state no run reaches. -/
  | noElement (f : Format) (n : Nat)
deriving DecidableEq, Repr

/-- The refusals. -/
inductive Refusal where
  /-- An arm of `exec` whose instruction has no meaning yet. Safe. No arm is left so. -/
  | notModelled (mnemonic : String)
deriving DecidableEq, Repr

/-- What a rule's pseudocode comes to: its value and the state it leaves, or the end of the step at a `raise` (the failed
state is the next state, 60_exceptions.md R266) or at a fault of the model's. -/
inductive Res (α : Type) where
  /-- The rule went through. -/
  | ok (a : α) (s : State)
  /-- The step ended inside the rule. -/
  | stop (o : Host.Outcome State Fault Refusal)

/-- Working registers with nothing in them: every one "no value" at reset (10_state.md R41; log 2). -/
def Work.empty : Work where
  hval := 0
  hcnt := 0
  sym := 0
  len := 0
  dsym := 0
  dist := 0
  lenField := 0
  nlenField := 0
  hlit := 0
  hdist := 0
  hclen := 0
  ml := List.replicate 19 0
  metaTable := []
  arr := []
  ll := []
  dl := []

/-- The machine right after power-on (10_state.md R41, 70_reset_and_hazards.md R301). `phase`, `out`, `out_count`, `err`,
`wp` and CTRL as the spec says; the rest, to which it gives no value, as logs 1 and 2 name it. -/
def State.reset : State where
  inMem := []
  inLen := 0
  start := 0
  ctrlGo := false
  ctrlRst := false
  pos := 0
  phase := .idle
  bfinal := false
  btype := 0
  rawRem := 0
  lt := []
  dt := []
  out := []
  outCount := 0
  err := .noError
  errPos := 0
  endPos := 0
  win := []
  wp := 0
  work := Work.empty

end Sys2Proof.Machine
end

