-- ==== Sys2Proof/Machine/Flags.lean ====
section
/-! DEFINITION. Flags and conditions. The core has no arithmetic condition codes (10_state.md R27); what stands here is the
error status and its codes, the STATUS register's fields, and the conditions the rules test. -/

namespace Sys2Proof.Machine

/-- The numeric error codes (60_exceptions.md R262, D17). -/
def ErrKind.code (k : ErrKind) : Nat :=
  match k with
  | .noError => 0
  | .malformedHeader => 1
  | .unsupportedBlockType => 2
  | .malformedStoredBlock => 3
  | .invalidCodeLengths => 4
  | .invalidRunLength => 5
  | .invalidEncoding => 6
  | .invalidBackReference => 7
  | .unexpectedEndOfStream => 8
  | .invalidSymbol => 9

/-- `STATUS.RUN` (10_state.md R38): 0 Idle, 1 busy, 2 Done, 3 Failed. -/
def Phase.run (p : Phase) : Nat :=
  match p with
  | .idle => 0
  | .awaitingHeader | .stored | .fixedTables | .dynamicTables | .decoding => 1
  | .done => 2
  | .failed => 3

/-- A run is in progress: `STATUS.RUN = 1` (R38). -/
def Phase.busy (p : Phase) : Bool := p.run == 1

/-- `STATUS` as the host reads it (R38): RUN in bits 1:0, bits 3:2 zero, ERR in bits 7:4. -/
def State.status (s : State) : BitVec 8 := BitVec.ofNat 8 (s.phase.run + 16 * s.err.code)

/-- The complement test of a stored header: `(LEN xor NLEN) = 0xFFFF` (44_block.md R206). -/
def complementOk (lenField nlenField : BitVec 16) : Bool := lenField ^^^ nlenField == 0xFFFF#16

/-- The distance test of a match: `dist > out_count` (45_inflate.md R234). -/
def distTooFar (dist outCount : Nat) : Bool := decide (dist > outCount)

/-- Raw-copy mode of the Decoding phase: `btype = 0` (10_state.md R25). -/
def State.rawMode (s : State) : Bool := s.btype == 0

/-- Huffman mode of the Decoding phase: `btype = 1` or `2` (10_state.md R25). -/
def State.huffmanMode (s : State) : Bool := s.btype == 1 || s.btype == 2

end Sys2Proof.Machine
end

