-- ==== Sys2Proof/Machine/Bits.lean ====
section
/-! DEFINITION. The bits of the input and the bit reader's two assembly directions (20_memory.md R62 to R65;
40_bitreader.md), as functions of the memory alone. The state's own reader (Machine/Ops.lean) and the decoder
(Decode.lean) are both written over them. -/

namespace Sys2Proof

/-- `InBit(p) = (in[p div 8] >> (p mod 8)) & 1` (00_scope.md R10, 20_memory.md R62). -/
def inBit (m : Memory) (p : Nat) : Nat := (Memory.read m (p / 8)).toNat / 2 ^ (p % 8) % 2

/-- The `n` bits from `pos`, least significant first: `sum over i in 0..n-1 of InBit(pos + i) << i` (R63). -/
def bitsLsb (m : Memory) (pos : Nat) : Nat → Nat
  | 0 => 0
  | n + 1 => bitsLsb m pos n + inBit m (pos + n) * 2 ^ n

/-- The `n` bits from `pos`, most significant first: `sum of InBit(pos + i) << (n - 1 - i)` (R64). -/
def bitsMsb (m : Memory) (pos : Nat) : Nat → Nat
  | 0 => 0
  | n + 1 => bitsMsb m pos n * 2 + inBit m (pos + n)

/-- The cursor rounded up to a byte boundary: `8 * ((pos + 7) div 8)` (40_bitreader.md R134). -/
def alignUp (pos : Nat) : Nat := 8 * ((pos + 7) / 8)

/-- The registers `readHuffmanPrefixBit` works on (40_bitreader.md R130, R133). -/
structure Reader where
  /-- The bit cursor. -/
  pos : Nat
  /-- The running prefix value. -/
  hval : Nat
  /-- The number of bits in `hval`. -/
  hcnt : Nat
deriving DecidableEq, Repr

/-- `readHuffmanPrefixBit()` (R133) on an input of `limit` bits; `none` where no bit is left (R132). -/
def prefixBit (m : Memory) (limit : Nat) (r : Reader) : Option Reader :=
  if r.pos + 1 > limit then none
  else some ⟨r.pos + 1, r.hval * 2 + inBit m r.pos, r.hcnt + 1⟩

/-- Bits (0 or 1) packed into bytes, the first bit of each eight the byte's bit 0, the last byte filled up with zeros
(20_memory.md R62; 30_encoding.md R112). -/
def packBits : List Nat → List Byte
  | b0 :: b1 :: b2 :: b3 :: b4 :: b5 :: b6 :: b7 :: rest =>
    BitVec.ofNat 8 (b0 + 2 * b1 + 4 * b2 + 8 * b3 + 16 * b4 + 32 * b5 + 64 * b6 + 128 * b7) :: packBits rest
  | [] => []
  | [b0] => [BitVec.ofNat 8 b0]
  | [b0, b1] => [BitVec.ofNat 8 (b0 + 2 * b1)]
  | [b0, b1, b2] => [BitVec.ofNat 8 (b0 + 2 * b1 + 4 * b2)]
  | [b0, b1, b2, b3] => [BitVec.ofNat 8 (b0 + 2 * b1 + 4 * b2 + 8 * b3)]
  | [b0, b1, b2, b3, b4] => [BitVec.ofNat 8 (b0 + 2 * b1 + 4 * b2 + 8 * b3 + 16 * b4)]
  | [b0, b1, b2, b3, b4, b5] => [BitVec.ofNat 8 (b0 + 2 * b1 + 4 * b2 + 8 * b3 + 16 * b4 + 32 * b5)]
  | [b0, b1, b2, b3, b4, b5, b6] =>
    [BitVec.ofNat 8 (b0 + 2 * b1 + 4 * b2 + 8 * b3 + 16 * b4 + 32 * b5 + 64 * b6)]

/-- The `n` low bits of `v`, least significant first: how a fixed-width field stands in the stream (R63). -/
def lsbBits (v : Nat) : Nat → List Nat
  | 0 => []
  | n + 1 => v % 2 :: lsbBits (v / 2) n

/-- The `n` low bits of `v`, most significant first: how a Huffman code stands in the stream (R64). -/
def msbBits (v : Nat) : Nat → List Nat
  | 0 => []
  | n + 1 => v / 2 ^ n % 2 :: msbBits v n

end Sys2Proof
end

