-- ==== Sys2Proof/Machine/Huffman.lean ====
section
/-! DEFINITION. The canonical-code table builder and the symbol decoder (41_huffman_build.md, 42_huffman_decode.md), as
functions of a code-length array and of the input alone, and the two fixed tables. -/

namespace Sys2Proof

/-- `T[(l, v)]` where the key is present (00_scope.md R11). The "matched" indication is the `Option`, never a symbol
number (70_reset_and_hazards.md R316). -/
def lookupCode (T : Table) (l v : Nat) : Option Nat :=
  match T with
  | [] => none
  | c :: T' => if c.len = l ∧ c.val = v then some c.sym else lookupCode T' l v

/-- The symbols `s, s + 1, ...` of the array whose length is `L`, in ascending order (41_huffman_build.md R153). -/
def symsOfLength (L : Nat) : Nat → List Nat → List Nat
  | _, [] => []
  | s, l :: ls => if l = L then s :: symsOfLength L (s + 1) ls else symsOfLength L (s + 1) ls

/-- Consecutive code values of length `L` from `next` up, given out in the order of the symbols (R151). -/
def assignCodes (L : Nat) : Nat → List Nat → Table
  | _, [] => []
  | next, s :: ss => ⟨L, next, s⟩ :: assignCodes L (next + 1) ss

/-- The loop of R151 from length `L` on, `n` lengths to go; `none` is `raise InvalidCodeLengths` (R154). -/
def buildLengths (lens : List Nat) : Nat → Nat → Nat → Option Table
  | 0, _, _ => some []
  | n + 1, L, nextCode =>
    let next := nextCode * 2
    let syms := symsOfLength L 0 lens
    if next + syms.length > 2 ^ L then none
    else (buildLengths lens n (L + 1) (next + syms.length)).map (assignCodes L next syms ++ ·)

/-- The used symbols (length not 0) from symbol `s` up, with their lengths. -/
def usedSyms : Nat → List Nat → List (Nat × Nat)
  | _, [] => []
  | s, l :: ls => if l = 0 then usedSyms (s + 1) ls else (s, l) :: usedSyms (s + 1) ls

/-- The key `(1, 1)` that R156 adds where exactly one symbol is used and its length is 1. -/
def singleSymbolCodes (lens : List Nat) : Table :=
  match usedSyms 0 lens with
  | [(s, 1)] => if Config.singleSymbolBothBits then [⟨1, 1, s⟩] else []
  | _ => []

/-- `build(n, len)` with `n` the length of the array (R150, R151); `none` is `raise InvalidCodeLengths` (R154). -/
def build (lens : List Nat) : Option Table :=
  (buildLengths lens Config.maxBits 1 0).map (· ++ singleSymbolCodes lens)

/-- `FL` of R160. -/
def fixedLitLenLengths : List Nat :=
  List.replicate 144 8 ++ List.replicate 112 9 ++ List.replicate 24 7 ++ List.replicate 8 8

/-- `FD` of R161. -/
def fixedDistLengths : List Nat := List.replicate 32 5

/-- `FIXED_LT = build(288, FL)` (R160), a constant (R162). Irreducible, so that no comparison of two states builds it: unfold it
by name. -/
@[irreducible] def fixedLitLen : Table := (build fixedLitLenLengths).getD []

/-- `FIXED_DT = build(32, FD)` (R161), a constant (R162). Irreducible as `fixedLitLen` is. -/
@[irreducible] def fixedDist : Table := (build fixedDistLengths).getD []

/-- The loop of `decodeSym(T)` (42_huffman_decode.md R171): extend the prefix by one bit, look it up, return on the first
match. `n` bounds the bits there are left. An error carries the reader as the end of the input finds it (R172, R173). -/
def scanSym (T : Table) (m : Memory) (limit : Nat) : Nat → Reader → Except Reader (Nat × Reader)
  | 0, r => .error r
  | n + 1, r =>
    match prefixBit m limit r with
    | none => .error r
    | some r' =>
      match lookupCode T r'.hcnt r'.hval with
      | some v => .ok (v, r')
      | none => scanSym T m limit n r'

/-- `decodeSym(T)` from the cursor `pos` on an input of `limit` bits (R171): `hval` and `hcnt` start from 0. -/
def decodeSymAt (T : Table) (m : Memory) (limit pos : Nat) : Except Reader (Nat × Reader) :=
  scanSym T m limit (limit - pos) ⟨pos, 0, 0⟩

end Sys2Proof
end

