-- ==== Sys2Proof/Machine/Ops.lean ====
section
/-! DEFINITION. The shared operations every meaning is written in: raising an error, the bit reader, the symbol decoder,
the output buffer, the end of a block, and the two host commands. -/

namespace Sys2Proof.Machine

/-- Go on with a rule's value, unless the step has ended. -/
def Res.bind {α β : Type} (r : Res α) (f : α → State → Res β) : Res β :=
  match r with
  | .ok a s => f a s
  | .stop o => .stop o

/-- A rule that is a whole step: its last state is the next state. -/
def Res.toOutcome {α : Type} (r : Res α) : Host.Outcome State Fault Refusal :=
  match r with
  | .ok _ s => .next s
  | .stop o => o

/-- Hand a rule's value and state on to what ends the step. -/
def Res.thenStep {α : Type} (r : Res α) (f : α → State → Host.Outcome State Fault Refusal) :
    Host.Outcome State Fault Refusal :=
  match r with
  | .ok a s => f a s
  | .stop o => o

/-! Taking an exception. -/

/-- Error entry: `err <- K; err_pos <- pos; phase <- Failed` and nothing else (60_exceptions.md R266, 10_state.md R26). -/
def State.raise (k : ErrKind) (s : State) : State := { s with err := k, errPos := s.pos, phase := .failed }

/-- `raise K`: enter the error and end the step (00_scope.md R11). -/
def raise {α : Type} (k : ErrKind) (s : State) : Res α := .stop (.next (s.raise k))

/-! The bit reader (40_bitreader.md). -/

/-- The number of bits of the input: `8 * IN_LEN` (R131). -/
def State.limit (s : State) : Nat := 8 * s.inLen

/-- Set the bit cursor. -/
def State.setPos (s : State) (p : Nat) : State := { s with pos := p }

/-- Replace the working registers. -/
def State.setWork (s : State) (w : Work) : State := { s with work := w }

/-- Write a reader's registers back: `pos`, `hval`, `hcnt`. -/
def State.setReader (s : State) (r : Reader) : State :=
  { s with pos := r.pos, work := { s.work with hval := r.hval, hcnt := r.hcnt } }

/-- `readBits(n)` (R131): the next `n` bits, least significant first, or `UnexpectedEndOfStream` with the cursor where it
was (R132). A read of no bits "returns 0, reads nothing, never raises" (D5), with the cursor beyond the end too (R131's
corner case, which the comparison its pseudocode writes does not show). -/
def readBits (n : Nat) (s : State) : Res Nat :=
  if 0 < n ∧ s.pos + n > s.limit then raise .unexpectedEndOfStream s
  else .ok (bitsLsb s.inMem s.pos n) (s.setPos (s.pos + n))

/-- `readHuffmanPrefixBit()` (R133). -/
def readHuffmanPrefixBit (s : State) : Res Unit :=
  match prefixBit s.inMem s.limit ⟨s.pos, s.work.hval, s.work.hcnt⟩ with
  | none => raise .unexpectedEndOfStream s
  | some r => .ok () (s.setReader r)

/-- `alignByte()` (R134). -/
def State.alignByte (s : State) : State := s.setPos (alignUp s.pos)

/-- `decodeSym(T)` (42_huffman_decode.md R171). Where the input ends inside the code, the bits of the unfinished code stay
consumed (R172). -/
def decodeSym (T : Table) (s : State) : Res Nat :=
  match decodeSymAt T s.inMem s.limit s.pos with
  | .ok (v, r) => .ok v (s.setReader r)
  | .error r => raise .unexpectedEndOfStream (s.setReader r)

/-- `build(n, len)` inside a rule: the table, or `raise InvalidCodeLengths` (41_huffman_build.md R154). -/
def buildTable (lens : List Nat) (s : State) : Res Table :=
  match build lens with
  | some T => .ok T s
  | none => raise .invalidCodeLengths s

/-! The output buffer. -/

/-- `OutAppend(b)` (00_scope.md R11), with what it does to the window: `win[wp] <- b; wp <- (wp + 1) mod WSIZE`
(10_state.md R31). -/
def State.outAppend (s : State) (b : Byte) : State :=
  { s with
    out := Memory.write s.out s.outCount b
    outCount := s.outCount + 1
    win := Memory.write s.win s.wp b
    wp := (s.wp + 1) % Config.windowSize }

/-- `MemRead(OUT, out_count - dist, 1)`: the byte `dist` behind the end of the output (45_inflate.md R234). -/
def State.backRead (s : State) (dist : Nat) : Byte := Memory.read s.out (s.outCount - dist)

/-- The back read of a realisation with a circular window: `win[(wp + WSIZE - dist) mod WSIZE]` (10_state.md R31). -/
def State.winRead (s : State) (dist : Nat) : Byte :=
  Memory.read s.win ((s.wp + Config.windowSize - dist) % Config.windowSize)

/-- The copy loop of a match: `n` bytes, each read `dist` behind the end after the one before it was appended
(45_inflate.md R234; 20_memory.md R72). -/
def copyBytes (dist : Nat) : Nat → State → State
  | 0, s => s
  | n + 1, s => copyBytes dist n (s.outAppend (s.backRead dist))

/-! The end of a block. -/

/-- End of block (44_block.md R202): LT and DT hold no value from here on (log 3); Done with `end_pos <- pos` when the
block was the final one, else on to the next header. -/
def State.endOfBlock (s : State) : State :=
  if s.bfinal then { s with lt := [], dt := [], endPos := s.pos, phase := .done }
  else { s with lt := [], dt := [], phase := .awaitingHeader }

/-! The host's commands (70_reset_and_hazards.md). -/

/-- The reset command (R301): every element of the run at its reset value; the launch parameters, which the core never
writes (10_state.md R20), stay as the host set them (log 4). -/
def State.resetCommand (s : State) : State :=
  { State.reset with inMem := s.inMem, inLen := s.inLen, start := s.start }

/-- The start command outside a run (R303): a reset, then `pos <- 8 * START; phase <- AwaitingHeader`. -/
def State.startCommand (s : State) : State :=
  { s.resetCommand with pos := 8 * s.start, phase := .awaitingHeader }

/-- The command the core takes next, if the host has written one: reset in every phase (R301), start outside a run (R303);
a start in a run is dropped and changes nothing else (R304; logs 5 and 6). -/
def State.takeCommand (s : State) : Option State :=
  if s.ctrlRst then some s.resetCommand
  else if s.ctrlGo then
    (if s.phase.busy then some { s with ctrlGo := false } else some s.startCommand)
  else none

end Sys2Proof.Machine
end

