-- ==== Sys2Proof/Machine/Tables.lean ====
section
/-! DEFINITION. The constant tables of the format (10_state.md R36; 30_encoding.md R95, R108, R109), held literally as the
spec demands (70_reset_and_hazards.md R315). The spec itself marks the values of R108 and R109 as general knowledge
(93_implementation_defined.md G1, G2; log 10). -/

namespace Sys2Proof

/-- `ORDER` (R95): the symbol whose length field `i` of the dynamic header carries. -/
def metaOrder : List Nat := [16, 17, 18, 0, 8, 7, 9, 6, 10, 5, 11, 4, 12, 3, 13, 2, 14, 1, 15]

/-- `LBASE` (R108), indexed by `sym - 257`. -/
def lengthBases : List Nat :=
  [3, 4, 5, 6, 7, 8, 9, 10, 11, 13, 15, 17, 19, 23, 27, 31, 35, 43, 51, 59, 67, 83, 99, 115, 131, 163, 195, 227, 258]

/-- `LEXT` (R108), indexed by `sym - 257`. -/
def lengthExtras : List Nat :=
  [0, 0, 0, 0, 0, 0, 0, 0, 1, 1, 1, 1, 2, 2, 2, 2, 3, 3, 3, 3, 4, 4, 4, 4, 5, 5, 5, 5, 0]

/-- `DBASE` (R109), indexed by `dsym`. -/
def distBases : List Nat :=
  [1, 2, 3, 4, 5, 7, 9, 13, 17, 25, 33, 49, 65, 97, 129, 193, 257, 385, 513, 769, 1025, 1537, 2049, 3073, 4097, 6145,
    8193, 12289, 16385, 24577]

/-- `DEXT` (R109), indexed by `dsym`. -/
def distExtras : List Nat :=
  [0, 0, 0, 0, 1, 1, 2, 2, 3, 3, 4, 4, 5, 5, 6, 6, 7, 7, 8, 8, 9, 9, 10, 10, 11, 11, 12, 12, 13, 13]

/-- `LBASE[sym - 257]`. Irreducible, so that no comparison of two states counts down from 257: unfold it by name. -/
@[irreducible] def lengthBase (sym : Nat) : Nat := lengthBases.getD (sym - 257) 0

/-- `LEXT[sym - 257]`. Irreducible as `lengthBase` is. -/
@[irreducible] def lengthExtra (sym : Nat) : Nat := lengthExtras.getD (sym - 257) 0

/-- `DBASE[dsym]`. -/
def distBase (dsym : Nat) : Nat := distBases.getD dsym 0

/-- `DEXT[dsym]`. -/
def distExtra (dsym : Nat) : Nat := distExtras.getD dsym 0

end Sys2Proof
end

