-- ==== Sys2Proof/Machine/Operands.lean ====
section
/-! DEFINITION. The operand forms of 30_encoding.md R100, each "unsigned and zero-extended; none is scaled or shifted; each
is added to a base", and the reads that fetch them from the stream. -/

namespace Sys2Proof.Machine

/-- The match length: `LBASE[sym-257] + readBits(LEXT[sym-257])`, written to `len` (45_inflate.md R234). -/
def readLength (sym : Nat) (s : State) : Res Nat :=
  (readBits (lengthExtra sym) s).bind fun x s =>
    .ok (lengthBase sym + x) (s.setWork { s.work with len := lengthBase sym + x })

/-- The distance symbol: `dsym <- decodeSym(DT)` (45_inflate.md R234). -/
def readDistSymbol (s : State) : Res Nat :=
  (decodeSym s.dt s).bind fun d s => .ok d (s.setWork { s.work with dsym := d })

/-- The match distance: `DBASE[dsym] + readBits(DEXT[dsym])`, written to `dist` (45_inflate.md R234). -/
def readDistance (dsym : Nat) (s : State) : Res Nat :=
  (readBits (distExtra dsym) s).bind fun x s =>
    .ok (distBase dsym + x) (s.setWork { s.work with dist := distBase dsym + x })

/-- A repeat count: `base + readBits(n)` (43_codelength_rle.md R183 to R185). -/
def readRepeat (base n : Nat) (s : State) : Res Nat :=
  (readBits n s).bind fun x s => .ok (base + x) s

/-- `LEN`, then `NLEN`, 16 bits each, LSB first (44_block.md R206); the value is LEN's. -/
def readStoredLengths (s : State) : Res Nat :=
  (readBits 16 s).bind fun x s =>
  (readBits 16 (s.setWork { s.work with lenField := BitVec.ofNat 16 x })).bind fun y s =>
    .ok x (s.setWork { s.work with nlenField := BitVec.ofNat 16 y })

/-- The three count fields of a dynamic header in their order: HLIT, HDIST, HCLEN (44_block.md R210, R211). -/
def readCounts (s : State) : Res Unit :=
  (readBits 5 s).bind fun x s =>
  (readBits 5 (s.setWork { s.work with hlit := x })).bind fun y s =>
  (readBits 4 (s.setWork { s.work with hdist := y })).bind fun z s =>
    .ok () (s.setWork { s.work with hclen := z })

/-- The meta lengths of the symbols listed, 3 bits each, in that order (44_block.md R210; 30_encoding.md R95). -/
def readMetaLengthsOf : List Nat → State → Res Unit
  | [], s => .ok () s
  | sym :: rest, s =>
    (readBits 3 s).bind fun x s =>
      readMetaLengthsOf rest (s.setWork { s.work with ml := s.work.ml.set sym x })

/-- All meta lengths: those the header does not carry are 0 (44_block.md R210; 30_encoding.md R95). -/
def readMetaLengths (s : State) : Res Unit :=
  readMetaLengthsOf (metaOrder.take (s.work.hclen + 4))
    (s.setWork { s.work with ml := List.replicate Config.metaSize 0 })

end Sys2Proof.Machine
end

