-- ==== Sys2Proof/Machine/CodeLength.lean ====
section
/-! DEFINITION. The code-length elements CL n, CL16, CL17, CL18 and the run-length expander that runs them
(43_codelength_rle.md). -/

namespace Sys2Proof.Machine

/-- `arr <- arr ++ xs`. -/
def State.appendLengths (s : State) (xs : List Nat) : State :=
  s.setWork { s.work with arr := s.work.arr ++ xs }

/-- `CL n` (R182): the length itself. -/
def ruleClN (n : Nat) (s : State) : Res Unit := .ok () (s.appendLengths [n])

/-- `CL16` (R183): `InvalidRunLength` where nothing precedes, tested before the extra bits are read; else 3 to 6 copies of
the last entry. -/
def ruleCl16 (s : State) : Res Unit :=
  match s.work.arr.getLast? with
  | none => raise .invalidRunLength s
  | some prev => (readRepeat 3 2 s).bind fun r s => .ok () (s.appendLengths (List.replicate r prev))

/-- `CL17` (R184): 3 to 10 zeros. -/
def ruleCl17 (s : State) : Res Unit :=
  (readRepeat 3 3 s).bind fun r s => .ok () (s.appendLengths (List.replicate r 0))

/-- `CL18` (R185): 11 to 138 zeros. -/
def ruleCl18 (s : State) : Res Unit :=
  (readRepeat 11 7 s).bind fun r s => .ok () (s.appendLengths (List.replicate r 0))

/-- The case of R181's loop: the rule of the meta symbol. -/
def ruleClSym (sym : Nat) (s : State) : Res Unit :=
  if sym ≤ 15 then ruleClN sym s
  else if sym = 16 then ruleCl16 s
  else if sym = 17 then ruleCl17 s
  else if sym = 18 then ruleCl18 s
  else .stop (.fault (.noElement .clsym sym))

/-- The loop of R181: a symbol of `M` while `|arr| < N`. Every turn appends an entry or ends the step, so the loop "runs at
most `N` times" and `fuel = N` turns are all there can be. -/
def rleLoop (M : Table) (N : Nat) : Nat → State → Res Unit
  | 0, s => .ok () s
  | fuel + 1, s =>
    if s.work.arr.length < N then
      (decodeSym M s).bind fun sym s => (ruleClSym sym s).bind fun _ s => rleLoop M N fuel s
    else .ok () s

/-- The end of R181: truncation (R186) and the guard that no input reaches (R187). -/
def rleFinish (N : Nat) (s : State) : Res (List Nat) :=
  let s := s.setWork { s.work with arr := s.work.arr.take N }
  if s.work.arr.length < N then raise .invalidEncoding s else .ok s.work.arr s

/-- `rle(M, N)` (R181): a run starts with `arr` empty. -/
def rle (M : Table) (N : Nat) (s : State) : Res (List Nat) :=
  (rleLoop M N N (s.setWork { s.work with arr := [] })).bind fun _ s => rleFinish N s

/-- `CL_n` (R182). -/
def execClN (n : Nat) (s : State) : Host.Outcome State Fault Refusal := (ruleClN n s).toOutcome

/-- `CL16` (R183). -/
def execCl16 (s : State) : Host.Outcome State Fault Refusal := (ruleCl16 s).toOutcome

/-- `CL17` (R184). -/
def execCl17 (s : State) : Host.Outcome State Fault Refusal := (ruleCl17 s).toOutcome

/-- `CL18` (R185). -/
def execCl18 (s : State) : Host.Outcome State Fault Refusal := (ruleCl18 s).toOutcome

end Sys2Proof.Machine
end

