-- ==== Sys2Proof/Machine/Block.lean ====
section
/-! DEFINITION. The block headers and the raw byte (44_block.md). A block header is one instruction of two steps (log 9): its
header step in AwaitingHeader (R201) and its setup step in the phase the header step chose (R206, R208, R210). -/

namespace Sys2Proof.Machine

/-- The header step's case (R201): latch `bfinal` and `btype`, move to the block's setup phase. -/
def State.latchHeader (s : State) (bfinal : Bool) (btype : BitVec 2) (p : Phase) : State :=
  { s with bfinal := bfinal, btype := btype, phase := p }

/-- The stored header step (R206): align, read LEN and NLEN, compare, set `raw_rem`. -/
def ruleStoredSetup (s : State) : Res Unit :=
  (readStoredLengths s.alignByte).bind fun n s =>
    if complementOk s.work.lenField s.work.nlenField then .ok () { s with rawRem := n, phase := .decoding }
    else raise .malformedStoredBlock s

/-- The fixed setup step (R208): the constant tables, no input bit read. -/
def ruleFixedSetup (s : State) : Res Unit :=
  .ok () { s with lt := fixedLitLen, dt := fixedDist, phase := .decoding }

/-- The two code-length runs of a dynamic header, the second a fresh run (R210; 30_encoding.md R97). -/
def readCodeLengths (s : State) : Res Unit :=
  (rle s.work.metaTable (s.work.hlit + 257) s).bind fun ll s =>
  (rle s.work.metaTable (s.work.hdist + 1) (s.setWork { s.work with ll := ll })).bind fun dl s =>
    .ok () (s.setWork { s.work with dl := dl })

/-- The dynamic setup step (R210, R211): counts, meta lengths, meta table, both runs, both tables. -/
def ruleDynamicSetup (s : State) : Res Unit :=
  (readCounts s).bind fun _ s =>
  (readMetaLengths s).bind fun _ s =>
  (buildTable s.work.ml s).bind fun M s =>
  (readCodeLengths (s.setWork { s.work with metaTable := M })).bind fun _ s =>
  (buildTable s.work.ll s).bind fun L s =>
  (buildTable s.work.dl s).bind fun D s =>
    .ok () { s with lt := L, dt := D, phase := .decoding }

/-- The raw byte, or the end of a stored body (R207). -/
def ruleRaw (s : State) : Res Unit :=
  if s.rawRem = 0 then .ok () s.endOfBlock
  else
    (readBits 8 s).bind fun b s =>
      .ok () { s.outAppend (BitVec.ofNat 8 b) with rawRem := s.rawRem - 1 }

/-- `BLOCK STORED` (R201, R206). -/
def execBlockStored (bfinal : Bool) (s : State) : Host.Outcome State Fault Refusal :=
  if s.phase = .stored then (ruleStoredSetup s).toOutcome else .next (s.latchHeader bfinal 0 .stored)

/-- `BLOCK FIXED` (R201, R208). -/
def execBlockFixed (bfinal : Bool) (s : State) : Host.Outcome State Fault Refusal :=
  if s.phase = .fixedTables then (ruleFixedSetup s).toOutcome else .next (s.latchHeader bfinal 1 .fixedTables)

/-- `BLOCK DYNAMIC` (R201, R210). -/
def execBlockDynamic (bfinal : Bool) (s : State) : Host.Outcome State Fault Refusal :=
  if s.phase = .dynamicTables then (ruleDynamicSetup s).toOutcome else .next (s.latchHeader bfinal 2 .dynamicTables)

/-- `BLOCK RESERVED` (R204): `UnsupportedBlockType`, after both header fields have been read. -/
def execBlockReserved (bfinal : Bool) (s : State) : Host.Outcome State Fault Refusal :=
  .next ((s.latchHeader bfinal 3 s.phase).raise .unsupportedBlockType)

/-- `RAW` (R207). -/
def execRaw (s : State) : Host.Outcome State Fault Refusal := (ruleRaw s).toOutcome

end Sys2Proof.Machine
end

