-- ==== Sys2Proof/Machine/Distance.lean ====
section
/-! DEFINITION. The distance symbols: the second half of a MATCH (45_inflate.md R234, R236). Each works on the length its
first half left in `len`. -/

namespace Sys2Proof.Machine

/-- The copy of R234: the distance test, once, against the total number of bytes produced, then `len` bytes one at a
time. -/
def ruleCopy (s : State) : Res Unit :=
  if distTooFar s.work.dist s.outCount then raise .invalidBackReference s
  else .ok () (copyBytes s.work.dist s.work.len s)

/-- A distance symbol 0..29: the distance with its extra bits, then the copy (R234). -/
def ruleDist (dsym : Nat) (s : State) : Res Unit := (readDistance dsym s).bind fun _ s => ruleCopy s

/-- A reserved distance symbol (R236). -/
def ruleDistReserved (s : State) : Res Unit := raise .invalidSymbol s

/-- The distance symbol just decoded: `if dsym >= 30 then execute rule R236` (R234). -/
def ruleDistSym (dsym : Nat) (s : State) : Res Unit :=
  if dsym ≥ 30 then ruleDistReserved s else ruleDist dsym s

/-- `DIST0` (R234; 30_encoding.md R109). -/
def execDist0 (s : State) : Host.Outcome State Fault Refusal := (ruleDist 0 s).toOutcome

/-- `DIST1` (R234; 30_encoding.md R109). -/
def execDist1 (s : State) : Host.Outcome State Fault Refusal := (ruleDist 1 s).toOutcome

/-- `DIST2` (R234; 30_encoding.md R109). -/
def execDist2 (s : State) : Host.Outcome State Fault Refusal := (ruleDist 2 s).toOutcome

/-- `DIST3` (R234; 30_encoding.md R109). -/
def execDist3 (s : State) : Host.Outcome State Fault Refusal := (ruleDist 3 s).toOutcome

/-- `DIST4` (R234; 30_encoding.md R109). -/
def execDist4 (s : State) : Host.Outcome State Fault Refusal := (ruleDist 4 s).toOutcome

/-- `DIST5` (R234; 30_encoding.md R109). -/
def execDist5 (s : State) : Host.Outcome State Fault Refusal := (ruleDist 5 s).toOutcome

/-- `DIST6` (R234; 30_encoding.md R109). -/
def execDist6 (s : State) : Host.Outcome State Fault Refusal := (ruleDist 6 s).toOutcome

/-- `DIST7` (R234; 30_encoding.md R109). -/
def execDist7 (s : State) : Host.Outcome State Fault Refusal := (ruleDist 7 s).toOutcome

/-- `DIST8` (R234; 30_encoding.md R109). -/
def execDist8 (s : State) : Host.Outcome State Fault Refusal := (ruleDist 8 s).toOutcome

/-- `DIST9` (R234; 30_encoding.md R109). -/
def execDist9 (s : State) : Host.Outcome State Fault Refusal := (ruleDist 9 s).toOutcome

/-- `DIST10` (R234; 30_encoding.md R109). -/
def execDist10 (s : State) : Host.Outcome State Fault Refusal := (ruleDist 10 s).toOutcome

/-- `DIST11` (R234; 30_encoding.md R109). -/
def execDist11 (s : State) : Host.Outcome State Fault Refusal := (ruleDist 11 s).toOutcome

/-- `DIST12` (R234; 30_encoding.md R109). -/
def execDist12 (s : State) : Host.Outcome State Fault Refusal := (ruleDist 12 s).toOutcome

/-- `DIST13` (R234; 30_encoding.md R109). -/
def execDist13 (s : State) : Host.Outcome State Fault Refusal := (ruleDist 13 s).toOutcome

/-- `DIST14` (R234; 30_encoding.md R109). -/
def execDist14 (s : State) : Host.Outcome State Fault Refusal := (ruleDist 14 s).toOutcome

/-- `DIST15` (R234; 30_encoding.md R109). -/
def execDist15 (s : State) : Host.Outcome State Fault Refusal := (ruleDist 15 s).toOutcome

/-- `DIST16` (R234; 30_encoding.md R109). -/
def execDist16 (s : State) : Host.Outcome State Fault Refusal := (ruleDist 16 s).toOutcome

/-- `DIST17` (R234; 30_encoding.md R109). -/
def execDist17 (s : State) : Host.Outcome State Fault Refusal := (ruleDist 17 s).toOutcome

/-- `DIST18` (R234; 30_encoding.md R109). -/
def execDist18 (s : State) : Host.Outcome State Fault Refusal := (ruleDist 18 s).toOutcome

/-- `DIST19` (R234; 30_encoding.md R109). -/
def execDist19 (s : State) : Host.Outcome State Fault Refusal := (ruleDist 19 s).toOutcome

/-- `DIST20` (R234; 30_encoding.md R109). -/
def execDist20 (s : State) : Host.Outcome State Fault Refusal := (ruleDist 20 s).toOutcome

/-- `DIST21` (R234; 30_encoding.md R109). -/
def execDist21 (s : State) : Host.Outcome State Fault Refusal := (ruleDist 21 s).toOutcome

/-- `DIST22` (R234; 30_encoding.md R109). -/
def execDist22 (s : State) : Host.Outcome State Fault Refusal := (ruleDist 22 s).toOutcome

/-- `DIST23` (R234; 30_encoding.md R109). -/
def execDist23 (s : State) : Host.Outcome State Fault Refusal := (ruleDist 23 s).toOutcome

/-- `DIST24` (R234; 30_encoding.md R109). -/
def execDist24 (s : State) : Host.Outcome State Fault Refusal := (ruleDist 24 s).toOutcome

/-- `DIST25` (R234; 30_encoding.md R109). -/
def execDist25 (s : State) : Host.Outcome State Fault Refusal := (ruleDist 25 s).toOutcome

/-- `DIST26` (R234; 30_encoding.md R109). -/
def execDist26 (s : State) : Host.Outcome State Fault Refusal := (ruleDist 26 s).toOutcome

/-- `DIST27` (R234; 30_encoding.md R109). -/
def execDist27 (s : State) : Host.Outcome State Fault Refusal := (ruleDist 27 s).toOutcome

/-- `DIST28` (R234; 30_encoding.md R109). -/
def execDist28 (s : State) : Host.Outcome State Fault Refusal := (ruleDist 28 s).toOutcome

/-- `DIST29` (R234; 30_encoding.md R109). -/
def execDist29 (s : State) : Host.Outcome State Fault Refusal := (ruleDist 29 s).toOutcome

/-- `DRSV30` (R236). -/
def execDrsv30 (s : State) : Host.Outcome State Fault Refusal := (ruleDistReserved s).toOutcome

/-- `DRSV31` (R236). -/
def execDrsv31 (s : State) : Host.Outcome State Fault Refusal := (ruleDistReserved s).toOutcome

end Sys2Proof.Machine
end

