-- ==== Sys2Proof/Machine/Inflate.lean ====
section
/-! DEFINITION. The literal/length symbols: LIT, EOB, the first half of a MATCH and the reserved symbols (45_inflate.md).
A length symbol runs the whole MATCH, its distance symbol and its copy included (R231: "One step handles one whole
element, a match included with its distance and copy"). -/

namespace Sys2Proof.Machine

/-- `LIT b` (R232). -/
def ruleLit (b : Byte) (s : State) : Res Unit := .ok () (s.outAppend b)

/-- `EOB` (R233). -/
def ruleEob (s : State) : Res Unit := .ok () s.endOfBlock

/-- `MATCH` (R234) for the length symbol `sym`: the length, the distance symbol, then the distance symbol's rule. -/
def ruleMatch (sym : Nat) (s : State) : Res Unit :=
  (readLength sym s).bind fun _ s => (readDistSymbol s).bind fun d s => ruleDistSym d s

/-- A reserved literal/length symbol (R235). -/
def ruleLitLenReserved (s : State) : Res Unit := raise .invalidSymbol s

/-- `LIT` (R232). -/
def execLit (b : Byte) (s : State) : Host.Outcome State Fault Refusal := (ruleLit b s).toOutcome

/-- `EOB` (R233). -/
def execEob (s : State) : Host.Outcome State Fault Refusal := (ruleEob s).toOutcome

/-- `LEN257` (R234; 30_encoding.md R108). -/
def execLen257 (s : State) : Host.Outcome State Fault Refusal := (ruleMatch 257 s).toOutcome

/-- `LEN258` (R234; 30_encoding.md R108). -/
def execLen258 (s : State) : Host.Outcome State Fault Refusal := (ruleMatch 258 s).toOutcome

/-- `LEN259` (R234; 30_encoding.md R108). -/
def execLen259 (s : State) : Host.Outcome State Fault Refusal := (ruleMatch 259 s).toOutcome

/-- `LEN260` (R234; 30_encoding.md R108). -/
def execLen260 (s : State) : Host.Outcome State Fault Refusal := (ruleMatch 260 s).toOutcome

/-- `LEN261` (R234; 30_encoding.md R108). -/
def execLen261 (s : State) : Host.Outcome State Fault Refusal := (ruleMatch 261 s).toOutcome

/-- `LEN262` (R234; 30_encoding.md R108). -/
def execLen262 (s : State) : Host.Outcome State Fault Refusal := (ruleMatch 262 s).toOutcome

/-- `LEN263` (R234; 30_encoding.md R108). -/
def execLen263 (s : State) : Host.Outcome State Fault Refusal := (ruleMatch 263 s).toOutcome

/-- `LEN264` (R234; 30_encoding.md R108). -/
def execLen264 (s : State) : Host.Outcome State Fault Refusal := (ruleMatch 264 s).toOutcome

/-- `LEN265` (R234; 30_encoding.md R108). -/
def execLen265 (s : State) : Host.Outcome State Fault Refusal := (ruleMatch 265 s).toOutcome

/-- `LEN266` (R234; 30_encoding.md R108). -/
def execLen266 (s : State) : Host.Outcome State Fault Refusal := (ruleMatch 266 s).toOutcome

/-- `LEN267` (R234; 30_encoding.md R108). -/
def execLen267 (s : State) : Host.Outcome State Fault Refusal := (ruleMatch 267 s).toOutcome

/-- `LEN268` (R234; 30_encoding.md R108). -/
def execLen268 (s : State) : Host.Outcome State Fault Refusal := (ruleMatch 268 s).toOutcome

/-- `LEN269` (R234; 30_encoding.md R108). -/
def execLen269 (s : State) : Host.Outcome State Fault Refusal := (ruleMatch 269 s).toOutcome

/-- `LEN270` (R234; 30_encoding.md R108). -/
def execLen270 (s : State) : Host.Outcome State Fault Refusal := (ruleMatch 270 s).toOutcome

/-- `LEN271` (R234; 30_encoding.md R108). -/
def execLen271 (s : State) : Host.Outcome State Fault Refusal := (ruleMatch 271 s).toOutcome

/-- `LEN272` (R234; 30_encoding.md R108). -/
def execLen272 (s : State) : Host.Outcome State Fault Refusal := (ruleMatch 272 s).toOutcome

/-- `LEN273` (R234; 30_encoding.md R108). -/
def execLen273 (s : State) : Host.Outcome State Fault Refusal := (ruleMatch 273 s).toOutcome

/-- `LEN274` (R234; 30_encoding.md R108). -/
def execLen274 (s : State) : Host.Outcome State Fault Refusal := (ruleMatch 274 s).toOutcome

/-- `LEN275` (R234; 30_encoding.md R108). -/
def execLen275 (s : State) : Host.Outcome State Fault Refusal := (ruleMatch 275 s).toOutcome

/-- `LEN276` (R234; 30_encoding.md R108). -/
def execLen276 (s : State) : Host.Outcome State Fault Refusal := (ruleMatch 276 s).toOutcome

/-- `LEN277` (R234; 30_encoding.md R108). -/
def execLen277 (s : State) : Host.Outcome State Fault Refusal := (ruleMatch 277 s).toOutcome

/-- `LEN278` (R234; 30_encoding.md R108). -/
def execLen278 (s : State) : Host.Outcome State Fault Refusal := (ruleMatch 278 s).toOutcome

/-- `LEN279` (R234; 30_encoding.md R108). -/
def execLen279 (s : State) : Host.Outcome State Fault Refusal := (ruleMatch 279 s).toOutcome

/-- `LEN280` (R234; 30_encoding.md R108). -/
def execLen280 (s : State) : Host.Outcome State Fault Refusal := (ruleMatch 280 s).toOutcome

/-- `LEN281` (R234; 30_encoding.md R108). -/
def execLen281 (s : State) : Host.Outcome State Fault Refusal := (ruleMatch 281 s).toOutcome

/-- `LEN282` (R234; 30_encoding.md R108). -/
def execLen282 (s : State) : Host.Outcome State Fault Refusal := (ruleMatch 282 s).toOutcome

/-- `LEN283` (R234; 30_encoding.md R108). -/
def execLen283 (s : State) : Host.Outcome State Fault Refusal := (ruleMatch 283 s).toOutcome

/-- `LEN284` (R234; 30_encoding.md R108). -/
def execLen284 (s : State) : Host.Outcome State Fault Refusal := (ruleMatch 284 s).toOutcome

/-- `LEN285` (R234; 30_encoding.md R108). -/
def execLen285 (s : State) : Host.Outcome State Fault Refusal := (ruleMatch 285 s).toOutcome

/-- `LLRSV286` (R235). -/
def execLlrsv286 (s : State) : Host.Outcome State Fault Refusal := (ruleLitLenReserved s).toOutcome

/-- `LLRSV287` (R235). -/
def execLlrsv287 (s : State) : Host.Outcome State Fault Refusal := (ruleLitLenReserved s).toOutcome

end Sys2Proof.Machine
end

