-- ==== Sys2Proof/WellFormed.lean ====
section
/-! DEFINITION. Which terms of `Instr` stand for an element of the stream. Every field but one is of exactly the range its
encoding admits by its type; the number of a `CL n` is checked here (43_codelength_rle.md R182: symbols 0 to 15). -/

namespace Sys2Proof

/-- A `CL n` names a literal code length 0..15 (R182, R101); every other term is an element as it stands. -/
def Instr.wellFormed (i : Instr) : Bool :=
  match i with
  | .clN n => decide (n ≤ 15)
  | .blockStored _ | .blockFixed _ | .blockDynamic _ | .blockReserved _ | .raw | .cl16 | .cl17 | .cl18 | .lit _
  | .eob | .len257 | .len258 | .len259 | .len260 | .len261 | .len262 | .len263 | .len264 | .len265 | .len266
  | .len267 | .len268 | .len269 | .len270 | .len271 | .len272 | .len273 | .len274 | .len275 | .len276 | .len277
  | .len278 | .len279 | .len280 | .len281 | .len282 | .len283 | .len284 | .len285 | .llrsv286 | .llrsv287
  | .dist0 | .dist1 | .dist2 | .dist3 | .dist4 | .dist5 | .dist6 | .dist7 | .dist8 | .dist9 | .dist10 | .dist11
  | .dist12 | .dist13 | .dist14 | .dist15 | .dist16 | .dist17 | .dist18 | .dist19 | .dist20 | .dist21 | .dist22
  | .dist23 | .dist24 | .dist25 | .dist26 | .dist27 | .dist28 | .dist29 | .drsv30 | .drsv31 => true

end Sys2Proof
end

