-- ==== Sys2Proof/Decode.lean ====
section
/-! DEFINITION. Decoding, total on any bytes and any cursor, and the encoder. An element's opcode is read from the input bits
(30_encoding.md R90, R91, R99) and its number names the row of the opcode table (R114); what is no row is refused by
name. The machine's fetch (Machine/Fetch.lean) takes its instruction from `decodeNumber`. -/

namespace Sys2Proof

/-- Why no instruction was decoded. -/
inductive DecodeError where
  /-- The input ends inside the opcode (40_bitreader.md R132; 42_huffman_decode.md R172). -/
  | endOfInput
  /-- The number is the number of no element of the format. -/
  | noElement (f : Format) (n : Nat)
deriving DecidableEq, Repr

/-- The elements of the literal/length symbols 256 to 287, in order (30_encoding.md R104). -/
def litLenElements : List Instr := [
  .eob, .len257, .len258, .len259, .len260, .len261, .len262, .len263, .len264, .len265, .len266, .len267,
  .len268, .len269, .len270, .len271, .len272, .len273, .len274, .len275, .len276, .len277, .len278, .len279,
  .len280, .len281, .len282, .len283, .len284, .len285, .llrsv286, .llrsv287]

/-- The elements of the distance symbols 0 to 31, in order (30_encoding.md R105). -/
def distElements : List Instr := [
  .dist0, .dist1, .dist2, .dist3, .dist4, .dist5, .dist6, .dist7, .dist8, .dist9, .dist10, .dist11, .dist12,
  .dist13, .dist14, .dist15, .dist16, .dist17, .dist18, .dist19, .dist20, .dist21, .dist22, .dist23, .dist24,
  .dist25, .dist26, .dist27, .dist28, .dist29, .drsv30, .drsv31]

/-- The block header of `BFINAL = f` and `BTYPE = t` (30_encoding.md R91, R92). -/
def blockElement (f : Bool) (t : Nat) : Option Instr :=
  match t with
  | 0 => some (.blockStored f)
  | 1 => some (.blockFixed f)
  | 2 => some (.blockDynamic f)
  | 3 => some (.blockReserved f)
  | _ => none

/-- The element of the opcode number `n` in the format `f` (30_encoding.md R91, R96, R104, R105, R114). -/
def decodeNumber (f : Format) (n : Nat) : Option Instr :=
  match f with
  | .blkhdr => blockElement (decide (n % 2 = 1)) (n / 2)
  | .clsym =>
    if n ≤ 15 then some (.clN n)
    else if n = 16 then some .cl16
    else if n = 17 then some .cl17
    else if n = 18 then some .cl18
    else none
  | .llsym => if n ≤ 255 then some (.lit (BitVec.ofNat 8 n)) else litLenElements[n - 256]?
  | .dsym => distElements[n]?
  | .raw => some .raw

/-- The element of the opcode number `n`, or the refusal by name. -/
def decodeOpcode (f : Format) (n : Nat) : Except DecodeError Instr :=
  match decodeNumber f n with
  | some i => .ok i
  | none => .error (.noElement f n)

/-- Read one element's opcode at the bit cursor `pos` of an input of `limit` bits, symbol codes by the table `T`
(30_encoding.md R90, R99): the element and the cursor just after its opcode. -/
def decode (f : Format) (T : Table) (m : Memory) (limit pos : Nat) : Except DecodeError (Instr × Nat) :=
  match f with
  | .blkhdr =>
    if pos + 3 > limit then .error .endOfInput
    else (decodeOpcode .blkhdr (bitsLsb m pos 3)).map fun i => (i, pos + 3)
  | .raw => .ok (.raw, pos)
  | .clsym | .llsym | .dsym =>
    match decodeSymAt T m limit pos with
    | .error _ => .error .endOfInput
    | .ok (n, r) => (decodeOpcode f n).map fun i => (i, r.pos)

/-- The format of an element (30_encoding.md R114). -/
def Instr.format (i : Instr) : Format :=
  match i with
  | .blockStored _ | .blockFixed _ | .blockDynamic _ | .blockReserved _ => .blkhdr
  | .raw => .raw
  | .clN _ | .cl16 | .cl17 | .cl18 => .clsym
  | .lit _ | .eob | .len257 | .len258 | .len259 | .len260 | .len261 | .len262 | .len263 | .len264 | .len265
  | .len266 | .len267 | .len268 | .len269 | .len270 | .len271 | .len272 | .len273 | .len274 | .len275 | .len276
  | .len277 | .len278 | .len279 | .len280 | .len281 | .len282 | .len283 | .len284 | .len285 | .llrsv286
  | .llrsv287 => .llsym
  | .dist0 | .dist1 | .dist2 | .dist3 | .dist4 | .dist5 | .dist6 | .dist7 | .dist8 | .dist9 | .dist10 | .dist11
  | .dist12 | .dist13 | .dist14 | .dist15 | .dist16 | .dist17 | .dist18 | .dist19 | .dist20 | .dist21 | .dist22
  | .dist23 | .dist24 | .dist25 | .dist26 | .dist27 | .dist28 | .dist29 | .drsv30 | .drsv31 => .dsym

/-- The opcode number of an element: its header value `h` or its symbol number (30_encoding.md R114). -/
def Instr.number (i : Instr) : Nat :=
  match i with
  | .blockStored f => f.toNat
  | .blockFixed f => f.toNat + 2
  | .blockDynamic f => f.toNat + 4
  | .blockReserved f => f.toNat + 6
  | .raw => 0
  | .clN n => n
  | .cl16 => 16
  | .cl17 => 17
  | .cl18 => 18
  | .lit b => b.toNat
  | .eob => 256
  | .len257 => 257
  | .len258 => 258
  | .len259 => 259
  | .len260 => 260
  | .len261 => 261
  | .len262 => 262
  | .len263 => 263
  | .len264 => 264
  | .len265 => 265
  | .len266 => 266
  | .len267 => 267
  | .len268 => 268
  | .len269 => 269
  | .len270 => 270
  | .len271 => 271
  | .len272 => 272
  | .len273 => 273
  | .len274 => 274
  | .len275 => 275
  | .len276 => 276
  | .len277 => 277
  | .len278 => 278
  | .len279 => 279
  | .len280 => 280
  | .len281 => 281
  | .len282 => 282
  | .len283 => 283
  | .len284 => 284
  | .len285 => 285
  | .llrsv286 => 286
  | .llrsv287 => 287
  | .dist0 => 0
  | .dist1 => 1
  | .dist2 => 2
  | .dist3 => 3
  | .dist4 => 4
  | .dist5 => 5
  | .dist6 => 6
  | .dist7 => 7
  | .dist8 => 8
  | .dist9 => 9
  | .dist10 => 10
  | .dist11 => 11
  | .dist12 => 12
  | .dist13 => 13
  | .dist14 => 14
  | .dist15 => 15
  | .dist16 => 16
  | .dist17 => 17
  | .dist18 => 18
  | .dist19 => 19
  | .dist20 => 20
  | .dist21 => 21
  | .dist22 => 22
  | .dist23 => 23
  | .dist24 => 24
  | .dist25 => 25
  | .dist26 => 26
  | .dist27 => 27
  | .dist28 => 28
  | .dist29 => 29
  | .drsv30 => 30
  | .drsv31 => 31

/-- The code of the symbol `n` in the table `T`: its first entry. -/
def codeOf (T : Table) (n : Nat) : Option Code :=
  match T with
  | [] => none
  | c :: T' => if c.sym = n then some c else codeOf T' n

/-- The stream bits of the opcode number `n` in the format `f`, the first stream bit first: a header LSB first
(30_encoding.md R91), a symbol as its code in `T`, MSB first (20_memory.md R64), a raw byte's opcode by no bits. -/
def opcodeBits (f : Format) (T : Table) (n : Nat) : Option (List Nat) :=
  match f with
  | .blkhdr => some (lsbBits n 3)
  | .raw => some []
  | .clsym | .llsym | .dsym => (codeOf T n).map fun c => msbBits c.val c.len

/-- The stream bits of an element's opcode; `none` where the table gives its symbol no code. -/
def encode (T : Table) (i : Instr) : Option (List Nat) := opcodeBits i.format T i.number

/-- The `k` bits of the input from the cursor `pos` on are the list `bits`. -/
def Spells (m : Memory) : Nat → List Nat → Prop
  | _, [] => True
  | pos, b :: bs => inBit m pos = b ∧ Spells m (pos + 1) bs

/-! The words of opcode_table.json, as `decodeTableWord` is asked for them. The table's five formats number the same small
naturals, and a bare word does not say its format (R114: the phase does), so one reading is fixed here (log 11). -/

/-- The format in which a bare table word is read (log 11): words of more than 8 bits are literal/length symbols but for
18 to 29, the distance symbols with more than 7 extra bits, whose rows the table gives more than 8 bits; of the shorter
words the even ones below 8 are block headers, 16 to 18 code-length symbols, the rest distance symbols. -/
def tableFormat (nbits w : Nat) : Format :=
  if nbits > 8 then (if 18 ≤ w % 512 ∧ w % 512 ≤ 29 then .dsym else .llsym)
  else if w % 256 = 0 ∨ w % 256 = 2 ∨ w % 256 = 4 ∨ w % 256 = 6 then .blkhdr
  else if 16 ≤ w % 32 ∧ w % 32 ≤ 18 then .clsym
  else .dsym

/-- The opcode number that a table word of the format holds: its low 3, 5, 9 or 5 bits (30_encoding.md R114). -/
def tableNumber (f : Format) (w : Nat) : Nat :=
  match f with
  | .blkhdr => w % 8
  | .clsym | .dsym => w % 32
  | .llsym => w % 512
  | .raw => 0

/-- Meta lengths under which every meta symbol has a code (log 11): 1 bit for symbol 18, 6 bits for each other. -/
def tableMetaLengths : List Nat := List.replicate 18 6 ++ [1]

/-- The table by which a table word's symbol is spelled: the fixed tables, and for the meta-alphabet the table of
`tableMetaLengths` (log 11). -/
def tableCodes (f : Format) : Table :=
  match f with
  | .clsym => (build tableMetaLengths).getD []
  | .llsym => fixedLitLen
  | .dsym => fixedDist
  | .blkhdr | .raw => []

/-- A table word laid out as input bytes: its opcode's stream bits, then zeros. -/
def tableBytes (nbits w : Nat) : Option (List Byte) :=
  (opcodeBits (tableFormat nbits w) (tableCodes (tableFormat nbits w)) (tableNumber (tableFormat nbits w) w)).map
    fun bits => packBits (bits ++ List.replicate 64 0)

/-- What the decoder reads from a table word's bytes; `none` where it refuses. -/
def decodeTableWord (nbits w : Nat) : Option Instr :=
  match tableBytes nbits w with
  | none => none
  | some bs =>
    match decode (tableFormat nbits w) (tableCodes (tableFormat nbits w)) (Memory.ofBytes bs) (8 * bs.length) 0 with
    | .ok (i, _) => some i
    | .error _ => none

end Sys2Proof
end

