-- ==== Sys2Proof/Machine/Fetch.lean ====
section
/-! DEFINITION. Fetch: which instruction the core runs next, chosen by `phase` (44_block.md R200), and the opcode bits it
reads for it; and how the host's check puts one instruction where the next step fetches it. -/

namespace Sys2Proof.Machine

/-- The opcode of a block header (44_block.md R201): `bfinal <- readBits(1); btype <- readBits(2)`, two reads. -/
def fetchHeader (s : State) : Res Instr :=
  (readBits 1 s).bind fun f s =>
  (readBits 2 { s with bfinal := decide (f = 1) }).bind fun t s =>
    match decodeNumber .blkhdr (f + 2 * t) with
    | some i => .ok i { s with btype := BitVec.ofNat 2 t }
    | none => .stop (.fault (.noElement .blkhdr (f + 2 * t)))

/-- The opcode of a body element in Huffman mode (45_inflate.md R231): `sym <- decodeSym(LT)`. -/
def fetchSymbol (s : State) : Res Instr :=
  (decodeSym s.lt s).bind fun n s =>
    match decodeNumber .llsym n with
    | some i => .ok i (s.setWork { s.work with sym := n })
    | none => .stop (.fault (.noElement .llsym n))

/-- The instruction of the next step and the state after its opcode (44_block.md R200). In a setup phase it is the block
header whose header step came before; in raw-copy mode it is RAW, which no bits select. -/
def fetch (s : State) : Res Instr :=
  match s.phase with
  | .idle | .done | .failed => .stop (.fault (.noStep s.phase))
  | .awaitingHeader => fetchHeader s
  | .stored => .ok (.blockStored s.bfinal) s
  | .fixedTables => .ok (.blockFixed s.bfinal) s
  | .dynamicTables => .ok (.blockDynamic s.bfinal) s
  | .decoding =>
    if s.rawMode then .ok .raw s
    else if s.huffmanMode then fetchSymbol s
    else .stop (.fault (.noStep s.phase))

/-! Placing one instruction of the opcode table (log 11). -/

/-- `in` and `IN_LEN` as the host sets them before a run: the bytes `bs`; no command pending; the cursor at bit 0. -/
def State.placeInput (s : State) (bs : List Byte) : State :=
  { s with inMem := Memory.ofBytes bs, inLen := bs.length, start := 0, ctrlGo := false, ctrlRst := false, pos := 0 }

/-- A dynamic header that carries the lengths `tableMetaLengths` and asks for 257 and 1 code lengths (30_encoding.md
R94). -/
def placeDynamicHeader : List Nat :=
  lsbBits 0 5 ++ lsbBits 0 5 ++ lsbBits 15 4 ++ [6, 6, 1].flatMap (lsbBits · 3) ++
    (List.replicate 16 6).flatMap (lsbBits · 3)

/-- The state whose next step runs the opcode number `n` of the format `f`, whose stream bits are `bits`. A header is
fetched in AwaitingHeader, a literal/length symbol in Huffman mode by the fixed tables, a distance symbol after the
length symbol 257 of the same MATCH, a code-length symbol first in the runs of a dynamic header, a raw byte in raw-copy
mode. -/
def State.place (s : State) (f : Format) (bits : List Nat) : State :=
  match f with
  | .blkhdr => { s.placeInput (packBits (bits ++ List.replicate 64 0)) with phase := .awaitingHeader }
  | .llsym =>
    { s.placeInput (packBits (bits ++ List.replicate 64 0)) with
      phase := .decoding, btype := 1, lt := fixedLitLen, dt := fixedDist }
  | .dsym =>
    { s.placeInput (packBits (msbBits 1 7 ++ bits ++ List.replicate 64 0)) with
      phase := .decoding, btype := 1, lt := fixedLitLen, dt := fixedDist }
  | .clsym =>
    { s.placeInput (packBits (placeDynamicHeader ++ bits ++ List.replicate 320 0)) with
      phase := .dynamicTables, btype := 2 }
  | .raw => { s.placeInput (packBits (List.replicate 64 0)) with phase := .decoding, btype := 0, rawRem := 1 }

/-- `s` with the table word's instruction where the next step fetches it. -/
def State.placeTableWord (s : State) (nbits w : Nat) : State :=
  let f := tableFormat nbits w
  s.place f ((opcodeBits f (tableCodes f) (tableNumber f w)).getD [])

end Sys2Proof.Machine
end

