-- ==== Sys2Proof/Machine/Step.lean ====
section
/-! DEFINITION. One step of the core: the host's command where one is pending, else the instruction that the phase fetches
(44_block.md R200; 70_reset_and_hazards.md R301, R303, R304). -/

namespace Sys2Proof.Machine

/-- One step. -/
def step (s : State) : Host.Outcome State Fault Refusal :=
  match s.takeCommand with
  | some t => .next t
  | none => (fetch s).thenStep fun i t => exec i t

/-- `s` with the instruction of the table word `w` where the next step fetches it (log 11). -/
def State.withFetchWord (s : State) (nbits w : Nat) : State := s.placeTableWord nbits w

end Sys2Proof.Machine
end

