-- ==== Sys2Proof/Machine/HostPort.lean ====
section
/-! DEFINITION. The host's side of the registers of 10_state.md R38: what the host can write and when, and what it reads.
None of these is a step of the core. -/

namespace Sys2Proof.Machine

/-- The host has access to `in`, `IN_LEN` and `START`: "while not busy" (10_state.md R38), and never "between the start
command and the end of the run" (20_memory.md R75). A start command that is written but not yet taken, an interval of the
model's own (log 5), belongs to the run it starts: that is the model's choice (log 6). -/
def State.hostOpen (s : State) : Bool := !s.phase.busy && !s.ctrlGo

/-- The host places the bytes of `in` (70_reset_and_hazards.md R305 (1)); while it has no access there is no such move
(R75; log 6). -/
def State.hostPlaceInput (s : State) (bytes : List Byte) : Option State :=
  if s.hostOpen then some { s with inMem := Memory.ofBytes bytes } else none

/-- The host writes `IN_LEN` (R38). -/
def State.hostWriteInLen (s : State) (n : Nat) : Option State :=
  if s.hostOpen then some { s with inLen := n } else none

/-- The host writes `START` (R38). -/
def State.hostWriteStart (s : State) (p : Nat) : Option State :=
  if s.hostOpen then some { s with start := p } else none

/-- The host reads `IN_LEN` (R38). -/
def State.hostReadInLen (s : State) : Option Nat := if s.hostOpen then some s.inLen else none

/-- The host reads `START` (R38). -/
def State.hostReadStart (s : State) : Option Nat := if s.hostOpen then some s.start else none

/-- The host's preparation of a run (R305 (1), (2)): the whole input placed, `IN_LEN` its byte length, `START` the payload's
first byte. -/
def State.hostLaunch (s : State) (bytes : List Byte) (start : Nat) : Option State :=
  (s.hostPlaceInput bytes).bind fun s => (s.hostWriteInLen bytes.length).bind fun s => s.hostWriteStart start

/-- The host writes CTRL: a 1 in bit 0 is the start command, a 1 in bit 1 the reset command; zeros write nothing
(R38). The command waits in its bit until the core's next step takes it (log 5). -/
def State.hostWriteCtrl (s : State) (v : BitVec 2) : State :=
  { s with ctrlGo := s.ctrlGo || v.getLsbD 0, ctrlRst := s.ctrlRst || v.getLsbD 1 }

/-- `STATUS.RUN` (R38). -/
def State.hostReadRun (s : State) : Nat := s.phase.run

/-- `STATUS.ERR` (R38). -/
def State.hostReadErr (s : State) : Nat := s.err.code

/-- `ERR_POS`: "no value until STATUS.RUN = 3" (R38). -/
def State.hostReadErrPos (s : State) : Option Nat := if s.phase = .failed then some s.errPos else none

/-- `END_POS`: "no value until STATUS.RUN = 2" (R38). -/
def State.hostReadEndPos (s : State) : Option Nat := if s.phase = .done then some s.endPos else none

/-- `OUT_COUNT` (R38); in Failed the host must not use it, and the model shows it nothing (60_exceptions.md R267). -/
def State.hostReadOutCount (s : State) : Option Nat := if s.phase = .failed then none else some s.outCount

/-- `OUT`: "meaningful only when STATUS.RUN = 2" (R38). -/
def State.hostReadOut (s : State) : Option (List Byte) :=
  if s.phase = .done then some (Memory.bytes s.out 0 s.outCount) else none

/-- The result of a run, all of a run that can be observed (10_state.md R37). -/
inductive Result where
  /-- `Done(out, end_pos)`. -/
  | done (out : List Byte) (endPos : Nat)
  /-- `Failed(err, err_pos)` and nothing else (60_exceptions.md R267). -/
  | failed (err : ErrKind) (errPos : Nat)
deriving DecidableEq, Repr

/-- The result where the run has ended (70_reset_and_hazards.md R308). -/
def State.result (s : State) : Option Result :=
  match s.phase with
  | .done => some (.done (Memory.bytes s.out 0 s.outCount) s.endPos)
  | .failed => some (.failed s.err s.errPos)
  | _ => none

end Sys2Proof.Machine
end

