-- ==== Sys2Proof/Safety.lean ====
section
/-! DEFINITION. The terms that claims are made in: what a run gone wrong is (60_exceptions.md R273), the invariants of the
core, and the spec's own declarative descriptions (41_huffman_build.md R152, R155; 43_codelength_rle.md R181) in which
results are stated, written apart from the operations they describe. -/

namespace Sys2Proof.Machine

/-- "a run has gone wrong exactly when it ends in `Failed`" (R273). -/
def State.goneWrong (s : State) : Bool := s.phase == .failed

/-- "A run has ended when `phase` is `Done` or `Failed`" (70_reset_and_hazards.md R308). -/
def State.ended (s : State) : Bool := s.phase == .done || s.phase == .failed

/-- A run is in progress (10_state.md R38: `STATUS.RUN = 1`). -/
def State.busy (s : State) : Bool := s.phase.busy

/-- The host has written no command the core has not yet taken (10_state.md R38). -/
abbrev State.quiet (s : State) : Prop := s.ctrlGo = false ∧ s.ctrlRst = false

/-- `raise K` at the cursor `p`: what an error leaves of a state (60_exceptions.md R266). -/
def State.failedAt (s : State) (k : ErrKind) (p : Nat) : State :=
  { s with pos := p, err := k, errPos := p, phase := .failed }

/-! Code-length arrays and tables. -/

/-- `first[L]` of R152: `first[1] = 0`, `first[L+1] = (first[L] + count[L]) << 1`. -/
def firstCode (lens : List Nat) : Nat → Nat
  | 0 => 0
  | L + 1 => (firstCode lens L + if L = 0 then 0 else lens.count L) * 2

/-- The place of symbol `s` among the symbols of its length `L`: how many smaller symbols have it (R153). -/
def rankOf (lens : List Nat) (s L : Nat) : Nat := (lens.take s).count L

/-- The Kraft sum in units of `2^-15`: `sum over used symbols of 2^(15 - length)` (R154, R155). -/
def kraftSum (lens : List Nat) : Nat := (lens.map fun l => if l = 0 then 0 else 2 ^ (15 - l)).sum

/-- "the set of (length, value) keys is prefix-free" (10_state.md R33): an entry whose key begins another's is that other. -/
def PrefixFree (T : Table) : Prop :=
  ∀ c ∈ T, ∀ d ∈ T, c.len ≤ d.len → d.val / 2 ^ (d.len - c.len) = c.val → c = d

/-- Keys `(l, v)` with `1 <= l <= MAXBITS` and `v < 2^l`, symbols below `n` (10_state.md R33, R34). -/
def Table.fits (T : Table) (n : Nat) : Bool :=
  T.all fun c => decide (1 ≤ c.len) && decide (c.len ≤ 15) && decide (c.val < 2 ^ c.len) && decide (c.sym < n)

/-- The meta code lengths of a dynamic header whose first `n` length fields start at bit `p` (30_encoding.md R95): symbol
`ORDER[i]` has field `i`, a symbol without a field has 0. -/
def metaLengthsAt (m : Memory) (p n : Nat) : List Nat :=
  (List.range 19).map fun sym =>
    if metaOrder.idxOf sym < n then bitsLsb m (p + 3 * metaOrder.idxOf sym) 3 else 0

/-- A code-length run on the input alone (R181 to R186): from the array `arr` and the cursor `p`, with `fuel` turns of the
loop left, the `N` lengths and the cursor after them, or the kind of the error it raises and the cursor there: the end of
the input inside a code (42_huffman_decode.md R172) or before the last extra bit (40_bitreader.md R132), symbol 16 with
nothing before it (R183), the guard (R187). A symbol above 18 is in no meta table (30_encoding.md R101) and read as 18. -/
def expandRun (M : Table) (N : Nat) (m : Memory) (limit : Nat) :
    Nat → List Nat → Nat → Except (ErrKind × Nat) (List Nat × Nat)
  | 0, arr, p => if arr.length < N then .error (.invalidEncoding, p) else .ok (arr.take N, p)
  | fuel + 1, arr, p =>
    if N ≤ arr.length then .ok (arr.take N, p)
    else
      match decodeSymAt M m limit p with
      | .error r => .error (.unexpectedEndOfStream, r.pos)
      | .ok (sym, r) =>
        if sym ≤ 15 then expandRun M N m limit fuel (arr ++ [sym]) r.pos
        else if sym = 16 then
          (if arr = [] then .error (.invalidRunLength, r.pos)
          else if limit < r.pos + 2 then .error (.unexpectedEndOfStream, r.pos)
          else expandRun M N m limit fuel
            (arr ++ List.replicate (3 + bitsLsb m r.pos 2) (arr.getLast?.getD 0)) (r.pos + 2))
        else if sym = 17 then
          (if limit < r.pos + 3 then .error (.unexpectedEndOfStream, r.pos)
          else expandRun M N m limit fuel (arr ++ List.replicate (3 + bitsLsb m r.pos 3) 0) (r.pos + 3))
        else if limit < r.pos + 7 then .error (.unexpectedEndOfStream, r.pos)
        else expandRun M N m limit fuel (arr ++ List.replicate (11 + bitsLsb m r.pos 7) 0) (r.pos + 7)

/-! Loops of the rules, as the pseudocode writes them. -/

/-- `k` calls of `readHuffmanPrefixBit` (40_bitreader.md R133). -/
def prefixBits : Nat → State → Res Unit
  | 0, s => .ok () s
  | k + 1, s => (prefixBits k s).bind fun _ t => readHuffmanPrefixBit t

/-- The loop of `decodeSym(T)` as 42_huffman_decode.md R171 writes it, over the state's own `hval` and `hcnt`; `fuel`
bounds its turns. -/
def decodeSymLoop (T : Table) : Nat → State → Res Nat
  | 0, s => raise .unexpectedEndOfStream s
  | fuel + 1, s =>
    (readHuffmanPrefixBit s).bind fun _ t =>
      match lookupCode T t.work.hcnt t.work.hval with
      | some v => .ok v t
      | none => decodeSymLoop T fuel t

/-! Invariants. -/

/-- Every memory is in its canonical form and holds nothing outside its addresses (20_memory.md R60; 10_state.md R31). -/
abbrev State.memoryOk (s : State) : Prop :=
  Memory.wf s.inMem = true ∧ Memory.wf s.out = true ∧ Memory.wf s.win = true ∧
    Memory.below s.out s.outCount = true ∧ Memory.below s.win Config.windowSize = true ∧ s.wp < Config.windowSize

/-- The window is a view of the output (10_state.md R31): its write pointer is `out_count mod WSIZE`, and every byte a
back-reference may read is the same in both. -/
def State.windowAgrees (s : State) : Prop :=
  s.wp = s.outCount % Config.windowSize ∧
    ∀ d, 1 ≤ d → d ≤ s.outCount → d ≤ Config.windowSize → s.winRead d = s.backRead d

/-- The tables a Huffman body decodes by are tables of its alphabets (10_state.md R34). -/
abbrev State.tablesOk (s : State) : Prop :=
  Table.fits s.lt Config.litLenMax = true ∧ Table.fits s.dt Config.distMax = true

/-- `phase`, `btype`, `raw_rem`, `err` and `pos` agree: the block type of each phase (44_block.md R201), a byte-aligned
cursor in raw-copy mode (R207), an error exactly in Failed (60_exceptions.md R266), a cursor inside the input once a
header has been read (10_state.md R23). -/
structure State.Consistent (s : State) : Prop where
  /-- Setup phases have their own block type. -/
  stored : s.phase = .stored → s.btype = 0
  /-- The same for fixed blocks. -/
  fixed : s.phase = .fixedTables → s.btype = 1
  /-- The same for dynamic blocks. -/
  dynamic : s.phase = .dynamicTables → s.btype = 2
  /-- No body has the reserved type. -/
  body : s.phase = .decoding → s.btype ≠ 3
  /-- Raw bytes are read on a byte-aligned cursor. -/
  aligned : s.phase = .decoding → s.btype = 0 → s.pos % 8 = 0
  /-- `raw_rem` is a 16-bit value. -/
  rawRem : s.rawRem < 65536
  /-- An error is recorded exactly in Failed. -/
  err : s.phase = .failed ↔ s.err ≠ .noError
  /-- After the first header the cursor is inside the input. -/
  inside : s.phase = .stored ∨ s.phase = .fixedTables ∨ s.phase = .dynamicTables ∨ s.phase = .decoding →
    s.pos ≤ 8 * s.inLen
  /-- Before a header it may also be where the run started (10_state.md R23 d). -/
  bounded : s.phase = .awaitingHeader → s.pos ≤ max (8 * s.start) (8 * s.inLen)

/-- How far a run still has to go: four times the bits left and the place of the phase in the order header, setup, body
(44_block.md R213). -/
def State.progress (s : State) : Nat :=
  match s.phase with
  | .idle | .done | .failed => 0
  | .awaitingHeader => 4 * (8 * s.inLen - s.pos) + 1
  | .decoding => 4 * (8 * s.inLen - s.pos) + 2
  | .stored | .fixedTables | .dynamicTables => 4 * (8 * s.inLen - s.pos) + 3

/-- The phases a step can lead to (44_block.md R200). -/
def Phase.follows (p q : Phase) : Bool :=
  match p with
  | .idle | .done | .failed => false
  | .awaitingHeader => q == .stored || q == .fixedTables || q == .dynamicTables || q == .failed
  | .stored | .dynamicTables => q == .decoding || q == .failed
  | .fixedTables => q == .decoding
  | .decoding => q == .decoding || q == .awaitingHeader || q == .done || q == .failed

/-- Two outcomes of a step that differ at most in the working registers (10_state.md R21). -/
def sameButWork (o o' : Host.Outcome State Fault Refusal) : Prop :=
  match o, o' with
  | .next t, .next t' => t.setWork Work.empty = t'.setWork Work.empty
  | .fault f, .fault f' => f = f'
  | .refused r, .refused r' => r = r'
  | _, _ => False

end Sys2Proof.Machine
end

