-- ==== Sys2Proof/Certificates/Slice0/Obligations.lean ====
section
/-! DEFINITION. The statements for the provers, in the order of the spec's files. Each docstring names the rule it
formalises; where a clause rests on a choice of the model's or on a decision the spec marks as its own, it says so and
names the log entry or the decision. -/

open Sys2Proof Sys2Proof.Machine

/-! ## The bit reader (40_bitreader.md; 20_memory.md) -/

/-- 20_memory.md R63: `readBits(n)` returns the next `n` bits, the bit read earliest the lowest-order bit of the result;
40_bitreader.md R131: it writes `pos` only. -/
def Obligations.ReadBitsLsbFirst : Prop :=
  ∀ (n : Nat) (s : State), s.pos + n ≤ 8 * s.inLen →
    ∃ v, readBits n s = .ok v { s with pos := s.pos + n } ∧ v < 2 ^ n ∧
      ∀ i, i < n → v / 2 ^ i % 2 = inBit s.inMem (s.pos + i)

/-- 40_bitreader.md R132: a read past the end raises `UnexpectedEndOfStream`, for any `n` bits of which one is missing.
The cursor left unchanged is the spec's decision D6, the failed state its decision D18. R131: a read of no bits returns 0,
changes nothing and never raises, wherever the cursor is: the spec's decision D5. -/
def Obligations.ReadPastEndRaises : Prop :=
  ∀ (n : Nat) (s : State),
    (n ≠ 0 → 8 * s.inLen < s.pos + n →
      readBits n s = .stop (.next (s.failedAt .unexpectedEndOfStream s.pos))) ∧
    readBits 0 s = .ok 0 s ∧
    (8 * s.inLen ≤ s.pos → readHuffmanPrefixBit s = .stop (.next (s.failedAt .unexpectedEndOfStream s.pos)))

/-- 40_bitreader.md R133: each new bit is shifted into the low position of `hval` while `hcnt` increases; with no bit left
it raises and changes none of the three. -/
def Obligations.PrefixBitShiftsInLow : Prop :=
  ∀ s : State,
    (s.pos + 1 ≤ 8 * s.inLen →
      readHuffmanPrefixBit s = .ok () { s with
        pos := s.pos + 1
        work := { s.work with hval := 2 * s.work.hval + inBit s.inMem s.pos, hcnt := s.work.hcnt + 1 } }) ∧
    (8 * s.inLen < s.pos + 1 →
      readHuffmanPrefixBit s = .stop (.next (s.failedAt .unexpectedEndOfStream s.pos)))

/-- 20_memory.md R64: after `k` prefix bits from `pos0`, `hval` is the sum of `InBit(pos0 + i) << (k - 1 - i)`: the earlier
the bit, the higher its order. -/
def Obligations.PrefixBitsAreMsbFirst : Prop :=
  ∀ (k : Nat) (s : State), s.work.hval = 0 → s.work.hcnt = 0 → s.pos + k ≤ 8 * s.inLen →
    ∃ t, prefixBits k s = .ok () t ∧ t.work.hcnt = k ∧ t.work.hval < 2 ^ k ∧
      (∀ i, i < k → t.work.hval / 2 ^ (k - 1 - i) % 2 = inBit s.inMem (s.pos + i)) ∧
      t = { s with pos := s.pos + k, work := { s.work with hval := t.work.hval, hcnt := k } }

/-- 20_memory.md R66 and 40_bitreader.md R135 (d), marked there as derived: on a byte-aligned cursor a read of 8 bits is
the byte, a read of 16 bits the two bytes with the lower address lower. -/
def Obligations.AlignedReadsAreLittleEndian : Prop :=
  ∀ s : State, s.pos % 8 = 0 →
    (s.pos / 8 + 1 ≤ s.inLen →
      readBits 8 s = .ok (Memory.read s.inMem (s.pos / 8)).toNat { s with pos := s.pos + 8 }) ∧
    (s.pos / 8 + 2 ≤ s.inLen →
      readBits 16 s = .ok
        ((Memory.read s.inMem (s.pos / 8)).toNat + 256 * (Memory.read s.inMem (s.pos / 8 + 1)).toNat)
        { s with pos := s.pos + 16 })

/-- 40_bitreader.md R134: `alignByte` moves the cursor to the next byte boundary, not at all where it stands on one, and
never past the end of the input. That the skipped bits are not looked at is the spec's decision D7. -/
def Obligations.AlignByteRoundsUp : Prop :=
  ∀ s : State, s.alignByte = { s with pos := s.alignByte.pos } ∧ s.alignByte.pos % 8 = 0 ∧
    s.pos ≤ s.alignByte.pos ∧ s.alignByte.pos < s.pos + 8 ∧ (s.pos % 8 = 0 → s.alignByte.pos = s.pos) ∧
    (s.pos ≤ 8 * s.inLen → s.alignByte.pos ≤ 8 * s.inLen)

/-! ## The table builder (41_huffman_build.md) -/

/-- 41_huffman_build.md R151, R153 in the form of R152, which is marked as derived: the symbols of length `L`, in ascending
order, get the values from `first[L]` up. -/
def Obligations.BuildNumbersCanonically : Prop :=
  ∀ (lens : List Nat) (T : Table), build lens = some T →
    ∀ s L, lens[s]? = some L → 1 ≤ L → L ≤ 15 → lookupCode T L (firstCode lens L + rankOf lens s L) = some s

/-- 41_huffman_build.md R151, R156: no other key is in the table, but for the key `(1, 1)` of an array with one used symbol
of length 1 (the spec's decision D9). -/
def Obligations.BuildAddsNoOtherKey : Prop :=
  ∀ (lens : List Nat) (T : Table), build lens = some T →
    ∀ l v s, lookupCode T l v = some s →
      (lens[s]? = some l ∧ 1 ≤ l ∧ l ≤ 15 ∧ v = firstCode lens l + rankOf lens s l) ∨
      (l = 1 ∧ v = 1 ∧ lens[s]? = some 1 ∧ ∀ s' l', lens[s']? = some l' → l' ≠ 0 → s' = s)

/-- 41_huffman_build.md R154, R155 (the test is the spec's decision D8): the builder fails exactly on an over-subscribed
array, whose Kraft sum exceeds 1. -/
def Obligations.BuildRejectsExactlyOversubscribed : Prop :=
  ∀ lens : List Nat, (∀ l ∈ lens, l ≤ 15) → (build lens = none ↔ 2 ^ 15 < kraftSum lens)

/-- 10_state.md R33; 41_huffman_build.md R155, marked there as derived: the keys of a built table are prefix-free, `1 <= l
<= MAXBITS` and `v < 2^l`, its symbols those of the alphabet. -/
def Obligations.BuiltTablesArePrefixFree : Prop :=
  ∀ (lens : List Nat) (T : Table), build lens = some T → PrefixFree T ∧ Table.fits T lens.length = true

/-- 41_huffman_build.md R156 (the spec's decision D9): an array with exactly one used symbol, of length 1, gives a table
that decodes that symbol from a 0 bit and from a 1 bit, and nothing else. -/
def Obligations.SingleSymbolFromEitherBit : Prop :=
  ∀ (lens : List Nat) (s : Nat), lens[s]? = some 1 → (∀ s' l, lens[s']? = some l → s' ≠ s → l = 0) →
    ∃ T, build lens = some T ∧ ∀ l v, lookupCode T l v = if l = 1 ∧ v ≤ 1 then some s else none

/-- 41_huffman_build.md R160, R161; 30_encoding.md R106, R107, marked there as derived: the codes of the fixed tables. -/
def Obligations.FixedTableCodes : Prop :=
  (∀ s, s < 288 → lookupCode fixedLitLen
      (if s ≤ 143 then 8 else if s ≤ 255 then 9 else if s ≤ 279 then 7 else 8)
      (if s ≤ 143 then 48 + s else if s ≤ 255 then 400 + (s - 144) else if s ≤ 279 then s - 256
        else 192 + (s - 280)) = some s) ∧
    (∀ d, d < 32 → lookupCode fixedDist 5 d = some d) ∧ fixedLitLen.length = 288 ∧ fixedDist.length = 32

/-! ## The symbol decoder (42_huffman_decode.md) -/

/-- 42_huffman_decode.md R171: `decodeSym(T)` clears `hval` and `hcnt`, then extends the prefix by one bit and looks
`(hcnt, hval)` up after every bit, until a match or until `readHuffmanPrefixBit` raises. -/
def Obligations.DecodeSymIsTheLoop : Prop :=
  ∀ (T : Table) (s : State), decodeSym T s =
    decodeSymLoop T (8 * s.inLen - s.pos + 1) (s.setWork { s.work with hval := 0, hcnt := 0 })

/-- 42_huffman_decode.md R171, R174 (a): the first bit count at which the bits read are a key decides. -/
def Obligations.DecodeSymReturnsFirstMatch : Prop :=
  ∀ (T : Table) (s : State) (k v : Nat), 1 ≤ k → s.pos + k ≤ 8 * s.inLen →
    lookupCode T k (bitsMsb s.inMem s.pos k) = some v →
    (∀ j, 1 ≤ j → j < k → lookupCode T j (bitsMsb s.inMem s.pos j) = none) →
    decodeSym T s = .ok v { s with
      pos := s.pos + k, work := { s.work with hval := bitsMsb s.inMem s.pos k, hcnt := k } }

/-- 42_huffman_decode.md R172, R173 (the spec's decision D10): where no prefix of what is left is a key the decoder drains
the input and raises `UnexpectedEndOfStream` at its end. -/
def Obligations.DecodeSymDrainsUnmatched : Prop :=
  ∀ (T : Table) (s : State), s.pos ≤ 8 * s.inLen →
    (∀ j, 1 ≤ j → s.pos + j ≤ 8 * s.inLen → lookupCode T j (bitsMsb s.inMem s.pos j) = none) →
    ∃ t, decodeSym T s = .stop (.next t) ∧
      t = { s.failedAt .unexpectedEndOfStream (8 * s.inLen) with
        work := { s.work with hval := t.work.hval, hcnt := 8 * s.inLen - s.pos } }

/-! ## Encoding (30_encoding.md) -/

/-- 30_encoding.md R90, R91, R99: decoding the stream bits of an element gives the element back and the cursor just after
them, for every element, and for every table the builder makes, wherever in the input the bits stand. -/
def Obligations.DecodeEncodeAgree : Prop :=
  ∀ (i : Instr) (lens : List Nat) (T : Table) (bits : List Nat) (m : Memory) (limit pos : Nat),
    i.wellFormed = true → build lens = some T → encode T i = some bits → Spells m pos bits →
    pos + bits.length ≤ limit → decode i.format T m limit pos = .ok (i, pos + bits.length)

/-- 30_encoding.md R91, R96, R104, R105, R114: a number names at most one element of a format, a number outside the
format's range none. -/
def Obligations.NumberNamesOneElement : Prop :=
  ∀ (f : Format) (n : Nat), f ≠ .raw →
    (∀ i, decodeNumber f n = some i → i.format = f ∧ i.number = n ∧ i.wellFormed = true) ∧
    (decodeNumber f n = none ↔
      (match f with
        | .blkhdr => 8
        | .clsym => 19
        | .llsym => 288
        | .dsym => 32
        | .raw => 0) ≤ n)

/-- Words from the spec's vectors and encodings (30_encoding.md R91, R106, R107; 95_test_vectors.md P2, P3, P5, E1, E6,
E7): the first elements of those streams. -/
def Obligations.SpecWordsDecode : Prop :=
  decode .blkhdr [] (Memory.ofBytes [0xCB]) 8 0 = .ok (.blockFixed true, 3) ∧
    decode .blkhdr [] (Memory.ofBytes [0x25]) 8 0 = .ok (.blockDynamic true, 3) ∧
    decode .blkhdr [] (Memory.ofBytes [0x07]) 8 0 = .ok (.blockReserved true, 3) ∧
    decode .llsym fixedLitLen (Memory.ofBytes [0xCB, 0x48]) 16 3 = .ok (.lit 0x68, 11) ∧
    decode .llsym fixedLitLen (Memory.ofBytes [0x4B, 0x04, 0x03, 0x00]) 32 11 = .ok (.len259, 18) ∧
    decode .llsym fixedLitLen (Memory.ofBytes [0x1B, 0x03, 0x00]) 24 3 = .ok (.llrsv286, 11) ∧
    decode .dsym fixedDist (Memory.ofBytes [0x4B, 0x04, 0x3E, 0x00]) 32 18 = .ok (.drsv30, 23)

/-! ## The code-length expander (43_codelength_rle.md) -/

/-- 43_codelength_rle.md R182: `CL n` appends its own length and changes nothing else. -/
def Obligations.CodeLengthAppends : Prop :=
  ∀ (n : Nat) (s : State), n ≤ 15 →
    exec (.clN n) s = .next { s with work := { s.work with arr := s.work.arr ++ [n] } }

/-- 43_codelength_rle.md R183: `CL16` repeats the last entry 3 to 6 times; with no entry it raises `InvalidRunLength`, before
its extra bits are read. What counts as preceding and the order of test and read are the spec's decision D12. -/
def Obligations.RepeatPrecedingLength : Prop :=
  ∀ s : State,
    (∀ xs prev, s.work.arr = xs ++ [prev] → s.pos + 2 ≤ 8 * s.inLen →
      exec .cl16 s = .next { s with
        pos := s.pos + 2
        work := { s.work with arr := s.work.arr ++ List.replicate (3 + bitsLsb s.inMem s.pos 2) prev } }) ∧
    (s.work.arr = [] → exec .cl16 s = .next (s.failedAt .invalidRunLength s.pos)) ∧
    (s.work.arr ≠ [] → 8 * s.inLen < s.pos + 2 →
      exec .cl16 s = .next (s.failedAt .unexpectedEndOfStream s.pos))

/-- 43_codelength_rle.md R184, R185: `CL17` repeats the length 0 3 to 10 times by 3 extra bits, `CL18` 11 to 138 times by 7;
either raises `UnexpectedEndOfStream` where its extra bits are cut off. The cursor and `err_pos` of that error are the
spec's decision D6 (40_bitreader.md R132), its failed state D18. -/
def Obligations.RepeatZeroLengths : Prop :=
  ∀ s : State,
    (s.pos + 3 ≤ 8 * s.inLen → exec .cl17 s = .next { s with
      pos := s.pos + 3
      work := { s.work with arr := s.work.arr ++ List.replicate (3 + bitsLsb s.inMem s.pos 3) 0 } }) ∧
    (8 * s.inLen < s.pos + 3 → exec .cl17 s = .next (s.failedAt .unexpectedEndOfStream s.pos)) ∧
    (s.pos + 7 ≤ 8 * s.inLen → exec .cl18 s = .next { s with
      pos := s.pos + 7
      work := { s.work with arr := s.work.arr ++ List.replicate (11 + bitsLsb s.inMem s.pos 7) 0 } }) ∧
    (8 * s.inLen < s.pos + 7 → exec .cl18 s = .next (s.failedAt .unexpectedEndOfStream s.pos))

/-- 43_codelength_rle.md R181 to R188: a run on the state is the run on the input alone: where that gives `N` lengths, so does
the core, exactly `N`, with the cursor after the last symbol read; where it ends in an error, the core raises that kind at
that cursor (60_exceptions.md R268), and it is never `InvalidEncoding` (R187). The positions are the spec's decisions D6 and
D10, the failed state D18. -/
def Obligations.RunExpandsAsDescribed : Prop :=
  ∀ (M : Table) (N : Nat) (s : State), Table.fits M 19 = true →
    (∀ xs p, expandRun M N s.inMem (8 * s.inLen) N [] s.pos = .ok (xs, p) →
      xs.length = N ∧ ∃ t, rle M N s = .ok xs t ∧
        t = { s with pos := p, work := { s.work with hval := t.work.hval, hcnt := t.work.hcnt, arr := xs } }) ∧
    (∀ k p, expandRun M N s.inMem (8 * s.inLen) N [] s.pos = .error (k, p) →
      (k = .unexpectedEndOfStream ∨ k = .invalidRunLength) ∧
      ∃ t, rle M N s = .stop (.next t) ∧ t = { s.failedAt k p with work := t.work })

/-- 43_codelength_rle.md R181: a turn of the loop decodes one meta symbol and runs the element it names: where that element's
own step goes through the loop goes on from its state, where it fails the run fails so. -/
def Obligations.CodeLengthLoopRunsElement : Prop :=
  ∀ (M : Table) (N fuel sym : Nat) (i : Instr) (s t u : State), s.phase ≠ .failed → s.work.arr.length < N →
    decodeSym M s = .ok sym t → decodeNumber .clsym sym = some i → exec i t = .next u →
    rleLoop M N (fuel + 1) s = if u.phase = .failed then .stop (.next u) else rleLoop M N fuel u

/-! ## The block machine (44_block.md) -/

/-- 44_block.md R201, R204: the header step reads the final flag, then the type, and goes to the type's phase; type 3 raises
`UnsupportedBlockType` just after the header; with no bit left, or one or two, the first or the second read raises. The
cursor of a cut-off read is the spec's decision D6 (R201 names it for one bit left), the failed state D18; the type numbers
0, 1, 2 are R92's, marked there as general knowledge (D4; log 10). -/
def Obligations.HeaderStep : Prop :=
  ∀ s : State, s.quiet → s.phase = .awaitingHeader →
    (8 * s.inLen < s.pos + 1 → step s = .next (s.failedAt .unexpectedEndOfStream s.pos)) ∧
    (s.pos + 1 ≤ 8 * s.inLen → 8 * s.inLen < s.pos + 3 →
      step s = .next { s.failedAt .unexpectedEndOfStream (s.pos + 1) with
        bfinal := decide (inBit s.inMem s.pos = 1) }) ∧
    (s.pos + 3 ≤ 8 * s.inLen →
      step s = .next
        (let ty := inBit s.inMem (s.pos + 1) + 2 * inBit s.inMem (s.pos + 2)
         let read := { s with
            pos := s.pos + 3, bfinal := decide (inBit s.inMem s.pos = 1), btype := BitVec.ofNat 2 ty }
         if ty = 0 then { read with phase := .stored }
         else if ty = 1 then { read with phase := .fixedTables }
         else if ty = 2 then { read with phase := .dynamicTables }
         else read.failedAt .unsupportedBlockType (s.pos + 3)))

/-- 44_block.md R201, R204: what a block header element does when it is run, outside its own setup phase: it latches its
flag and type and moves to its setup phase, or raises. That the element is run here and again in its setup phase is the
model's reading (log 9). -/
def Obligations.HeaderElementsLatch : Prop :=
  ∀ (f : Bool) (s : State),
    (s.phase ≠ .stored →
      exec (.blockStored f) s = .next { s with bfinal := f, btype := 0, phase := .stored }) ∧
    (s.phase ≠ .fixedTables →
      exec (.blockFixed f) s = .next { s with bfinal := f, btype := 1, phase := .fixedTables }) ∧
    (s.phase ≠ .dynamicTables →
      exec (.blockDynamic f) s = .next { s with bfinal := f, btype := 2, phase := .dynamicTables }) ∧
    exec (.blockReserved f) s =
      .next { s.failedAt .unsupportedBlockType s.pos with bfinal := f, btype := 3 }

/-- 44_block.md R206: the stored header step aligns, reads LEN and NLEN, and sets `raw_rem`; it raises
`MalformedStoredBlock` just after NLEN where the two are no 16-bit complements, and `UnexpectedEndOfStream` where either is
cut off. The cursor and `err_pos` of a cut-off field are the spec's decision D6 (40_bitreader.md R132), the failed state
D18. -/
def Obligations.StoredHeaderStep : Prop :=
  ∀ (f : Bool) (s : State), s.phase = .stored →
    (8 * s.inLen < alignUp s.pos + 16 →
      exec (.blockStored f) s = .next (s.failedAt .unexpectedEndOfStream (alignUp s.pos))) ∧
    (alignUp s.pos + 16 ≤ 8 * s.inLen → 8 * s.inLen < alignUp s.pos + 32 →
      exec (.blockStored f) s = .next { s.failedAt .unexpectedEndOfStream (alignUp s.pos + 16) with
        work := { s.work with lenField := BitVec.ofNat 16 (bitsLsb s.inMem (alignUp s.pos) 16) } }) ∧
    (alignUp s.pos + 32 ≤ 8 * s.inLen →
      exec (.blockStored f) s = .next
        (let n := bitsLsb s.inMem (alignUp s.pos) 16
         let c := bitsLsb s.inMem (alignUp s.pos + 16) 16
         let read := { s with
            pos := alignUp s.pos + 32
            work := { s.work with lenField := BitVec.ofNat 16 n, nlenField := BitVec.ofNat 16 c } }
         if n + c = 65535 then { read with rawRem := n, phase := .decoding }
         else read.failedAt .malformedStoredBlock (alignUp s.pos + 32)))

/-- 44_block.md R207: one byte of a stored body is appended unchanged; at `raw_rem = 0` the block ends (R202). The per-byte
position of an error is the spec's decision D25. -/
def Obligations.RawByteOrBodyEnd : Prop :=
  ∀ s : State, s.memoryOk →
    (s.rawRem = 0 → exec .raw s = .next s.endOfBlock) ∧
    (s.rawRem ≠ 0 → s.pos % 8 = 0 → s.pos + 8 ≤ 8 * s.inLen → ∃ t, exec .raw s = .next t ∧
      Memory.read t.out s.outCount = Memory.read s.inMem (s.pos / 8) ∧
      (∀ a, a ≠ s.outCount → Memory.read t.out a = Memory.read s.out a) ∧
      t = { s with
        pos := s.pos + 8, rawRem := s.rawRem - 1, outCount := s.outCount + 1, out := t.out, win := t.win
        wp := (s.wp + 1) % 32768 }) ∧
    (s.rawRem ≠ 0 → 8 * s.inLen < s.pos + 8 → exec .raw s = .next (s.failedAt .unexpectedEndOfStream s.pos))

/-- 44_block.md R208: the fixed setup step selects the two fixed tables, reads no bit, and goes to Decoding. -/
def Obligations.FixedSetupStep : Prop :=
  ∀ (f : Bool) (s : State), s.phase = .fixedTables →
    exec (.blockFixed f) s = .next { s with lt := fixedLitLen, dt := fixedDist, phase := .decoding }

/-- 44_block.md R210, R211: the dynamic setup step: three counts, `HCLEN + 4` meta lengths in ORDER, the meta table, the two
runs, and the two tables. The first clause is ORDER itself, in which `metaLengthsAt` assigns the length fields
(30_encoding.md R95; 10_state.md R36); that a symbol without a field has length 0 is the spec's decision D11. -/
def Obligations.DynamicSetupCompletes : Prop :=
  metaOrder = [16, 17, 18, 0, 8, 7, 9, 6, 10, 5, 11, 4, 12, 3, 13, 2, 14, 1, 15] ∧
  ∀ (f : Bool) (s : State) (M L D : Table) (ll dl : List Nat) (p q : Nat), s.phase = .dynamicTables →
    s.pos + 14 + 3 * (bitsLsb s.inMem (s.pos + 10) 4 + 4) ≤ 8 * s.inLen →
    build (metaLengthsAt s.inMem (s.pos + 14) (bitsLsb s.inMem (s.pos + 10) 4 + 4)) = some M →
    expandRun M (bitsLsb s.inMem s.pos 5 + 257) s.inMem (8 * s.inLen) (bitsLsb s.inMem s.pos 5 + 257) []
      (s.pos + 14 + 3 * (bitsLsb s.inMem (s.pos + 10) 4 + 4)) = .ok (ll, p) →
    expandRun M (bitsLsb s.inMem (s.pos + 5) 5 + 1) s.inMem (8 * s.inLen)
      (bitsLsb s.inMem (s.pos + 5) 5 + 1) [] p = .ok (dl, q) →
    build ll = some L → build dl = some D →
    ∃ t, exec (.blockDynamic f) s = .next t ∧
      t = { s with pos := q, lt := L, dt := D, phase := .decoding, work := t.work }

/-- 44_block.md R210; 60_exceptions.md R262, R265, R268: a dynamic header fails at the first thing that goes wrong in stream
order. A count field or a meta length that is cut off raises `UnexpectedEndOfStream` at its first bit; an over-subscribed
array of meta lengths raises `InvalidCodeLengths` just after the last of them; an error of either run is the step's, kind
and position unchanged; where both runs go through, an over-subscribed array of one raises `InvalidCodeLengths` just after
the second. The positions are the spec's decision D6, the failed state D18, the test of the arrays D8. -/
def Obligations.DynamicSetupRejects : Prop :=
  ∀ (f : Bool) (s : State) (n : Nat), s.phase = .dynamicTables → n = bitsLsb s.inMem (s.pos + 10) 4 + 4 →
    (∀ p, (p = s.pos ∧ 8 * s.inLen < p + 5) ∨
        (p = s.pos + 5 ∧ p ≤ 8 * s.inLen ∧ 8 * s.inLen < p + 5) ∨
        (p = s.pos + 10 ∧ p ≤ 8 * s.inLen ∧ 8 * s.inLen < p + 4) ∨
        (∃ i, i < n ∧ p = s.pos + 14 + 3 * i ∧ p ≤ 8 * s.inLen ∧ 8 * s.inLen < p + 3) →
      ∃ t, exec (.blockDynamic f) s = .next t ∧ t = { s.failedAt .unexpectedEndOfStream p with work := t.work }) ∧
    (s.pos + 14 + 3 * n ≤ 8 * s.inLen →
      (build (metaLengthsAt s.inMem (s.pos + 14) n) = none →
        ∃ t, exec (.blockDynamic f) s = .next t ∧
          t = { s.failedAt .invalidCodeLengths (s.pos + 14 + 3 * n) with work := t.work }) ∧
      (∀ M, build (metaLengthsAt s.inMem (s.pos + 14) n) = some M →
        (∀ k e,
          expandRun M (bitsLsb s.inMem s.pos 5 + 257) s.inMem (8 * s.inLen) (bitsLsb s.inMem s.pos 5 + 257) []
            (s.pos + 14 + 3 * n) = .error (k, e) →
          ∃ t, exec (.blockDynamic f) s = .next t ∧ t = { s.failedAt k e with work := t.work }) ∧
        (∀ ll p,
          expandRun M (bitsLsb s.inMem s.pos 5 + 257) s.inMem (8 * s.inLen) (bitsLsb s.inMem s.pos 5 + 257) []
            (s.pos + 14 + 3 * n) = .ok (ll, p) →
          (∀ k e,
            expandRun M (bitsLsb s.inMem (s.pos + 5) 5 + 1) s.inMem (8 * s.inLen)
              (bitsLsb s.inMem (s.pos + 5) 5 + 1) [] p = .error (k, e) →
            ∃ t, exec (.blockDynamic f) s = .next t ∧ t = { s.failedAt k e with work := t.work }) ∧
          (∀ dl q,
            expandRun M (bitsLsb s.inMem (s.pos + 5) 5 + 1) s.inMem (8 * s.inLen)
              (bitsLsb s.inMem (s.pos + 5) 5 + 1) [] p = .ok (dl, q) →
            build ll = none ∨ build dl = none →
            ∃ t, exec (.blockDynamic f) s = .next t ∧
              t = { s.failedAt .invalidCodeLengths q with work := t.work }))))

/-- 45_inflate.md R233, 44_block.md R202: the end of a block ends the run with `end_pos <- pos` after the final block, else
goes back to the next header; nothing is appended. The empty tables it leaves stand for "no value" (log 3). -/
def Obligations.EndOfBlockElement : Prop :=
  ∀ s : State,
    (s.bfinal = true → exec .eob s = .next { s with endPos := s.pos, phase := .done, lt := [], dt := [] }) ∧
    (s.bfinal = false → exec .eob s = .next { s with phase := .awaitingHeader, lt := [], dt := [] })

/-! ## The inflator (45_inflate.md) -/

/-- 45_inflate.md R232, 00_scope.md R11: a literal appends its byte at `out_count` and leaves every other byte of the
output, the phase, and everything else but the window (10_state.md R31) as it was. -/
def Obligations.LiteralAppends : Prop :=
  ∀ (b : Byte) (s : State), s.memoryOk →
    ∃ t, exec (.lit b) s = .next t ∧ Memory.read t.out s.outCount = b ∧
      (∀ a, a ≠ s.outCount → Memory.read t.out a = Memory.read s.out a) ∧
      Memory.read t.win s.wp = b ∧ (∀ a, a ≠ s.wp → Memory.read t.win a = Memory.read s.win a) ∧
      t = { s with outCount := s.outCount + 1, out := t.out, win := t.win, wp := (s.wp + 1) % 32768 }

/-- 45_inflate.md R234, R237: every length element 257 to 285, where its operands are there, its distance symbol is below 30
and its distance does not exceed the bytes produced, appends `len` bytes, each the byte `dist` before it, and leaves every
other byte of the output as it was. -/
def Obligations.MatchCompletes : Prop :=
  ∀ (sym d : Nat) (i : Instr) (r : Reader) (s : State), 257 ≤ sym → sym ≤ 285 →
    decodeNumber .llsym sym = some i → s.memoryOk →
    s.pos + lengthExtra sym ≤ 8 * s.inLen →
    decodeSymAt s.dt s.inMem (8 * s.inLen) (s.pos + lengthExtra sym) = .ok (d, r) → d < 30 →
    r.pos + distExtra d ≤ 8 * s.inLen →
    distBase d + bitsLsb s.inMem r.pos (distExtra d) ≤ s.outCount →
    ∃ t, exec i s = .next t ∧
      (∀ k, k < lengthBase sym + bitsLsb s.inMem s.pos (lengthExtra sym) →
        Memory.read t.out (s.outCount + k) =
          Memory.read t.out (s.outCount + k - (distBase d + bitsLsb s.inMem r.pos (distExtra d)))) ∧
      (∀ a, a < s.outCount ∨ s.outCount + (lengthBase sym + bitsLsb s.inMem s.pos (lengthExtra sym)) ≤ a →
        Memory.read t.out a = Memory.read s.out a) ∧
      t = { s with
        pos := r.pos + distExtra d
        outCount := s.outCount + (lengthBase sym + bitsLsb s.inMem s.pos (lengthExtra sym))
        out := t.out, win := t.win, wp := t.wp
        work := { s.work with
          hval := r.hval, hcnt := r.hcnt, dsym := d
          len := lengthBase sym + bitsLsb s.inMem s.pos (lengthExtra sym)
          dist := distBase d + bitsLsb s.inMem r.pos (distExtra d) } }

/-- 45_inflate.md R234, R236; 60_exceptions.md R265, marked there as derived: the errors of a match in the order they can
arise, with the position of each, nothing appended. A symbol without extra bits reads none and cannot be cut off there (the
spec's decision D5). The reserved symbols' kind is the spec's decision D15, the positions D6 and D10. -/
def Obligations.MatchErrorsInOrder : Prop :=
  ∀ (sym : Nat) (i : Instr) (s : State), 257 ≤ sym → sym ≤ 285 → decodeNumber .llsym sym = some i →
    (lengthExtra sym ≠ 0 → 8 * s.inLen < s.pos + lengthExtra sym →
      exec i s = .next (s.failedAt .unexpectedEndOfStream s.pos)) ∧
    (lengthExtra sym = 0 ∨ s.pos + lengthExtra sym ≤ 8 * s.inLen →
      (∀ r, decodeSymAt s.dt s.inMem (8 * s.inLen) (s.pos + lengthExtra sym) = .error r →
        ∃ t, exec i s = .next t ∧
          t = { s.failedAt .unexpectedEndOfStream (max s.pos (8 * s.inLen)) with work := t.work }) ∧
      (∀ d r, decodeSymAt s.dt s.inMem (8 * s.inLen) (s.pos + lengthExtra sym) = .ok (d, r) →
        ∃ t, exec i s = .next t ∧
          (30 ≤ d → t = { s.failedAt .invalidSymbol r.pos with work := t.work }) ∧
          (d < 30 → 8 * s.inLen < r.pos + distExtra d →
            t = { s.failedAt .unexpectedEndOfStream r.pos with work := t.work }) ∧
          (d < 30 → r.pos + distExtra d ≤ 8 * s.inLen →
            s.outCount < distBase d + bitsLsb s.inMem r.pos (distExtra d) →
            t = { s.failedAt .invalidBackReference (r.pos + distExtra d) with work := t.work })))

/-- 45_inflate.md R234: a distance element 0 to 29, on the length its match has left in `len`: the distance with its extra
bits (none for symbols 0 to 3, whose read never raises: the spec's decision D5), the distance test, the copy. -/
def Obligations.DistanceElementCopies : Prop :=
  ∀ (d : Nat) (i : Instr) (s : State), d < 30 → decodeNumber .dsym d = some i → s.memoryOk →
    (distExtra d ≠ 0 → 8 * s.inLen < s.pos + distExtra d →
      exec i s = .next (s.failedAt .unexpectedEndOfStream s.pos)) ∧
    (distExtra d = 0 ∨ s.pos + distExtra d ≤ 8 * s.inLen →
      s.outCount < distBase d + bitsLsb s.inMem s.pos (distExtra d) →
      exec i s = .next { s.failedAt .invalidBackReference (s.pos + distExtra d) with
        work := { s.work with dist := distBase d + bitsLsb s.inMem s.pos (distExtra d) } }) ∧
    (distExtra d = 0 ∨ s.pos + distExtra d ≤ 8 * s.inLen →
      distBase d + bitsLsb s.inMem s.pos (distExtra d) ≤ s.outCount →
      ∃ t, exec i s = .next t ∧
        (∀ k, k < s.work.len → Memory.read t.out (s.outCount + k) =
          Memory.read t.out (s.outCount + k - (distBase d + bitsLsb s.inMem s.pos (distExtra d)))) ∧
        (∀ a, a < s.outCount ∨ s.outCount + s.work.len ≤ a → Memory.read t.out a = Memory.read s.out a) ∧
        t = { s with
          pos := s.pos + distExtra d, outCount := s.outCount + s.work.len
          out := t.out, win := t.win, wp := t.wp
          work := { s.work with dist := distBase d + bitsLsb s.inMem s.pos (distExtra d) } })

/-- 45_inflate.md R237, marked there as derived: byte `i` of a copy is the byte `dist` before it, which for `dist < len` a
previous turn wrote: the last `dist` bytes before the match repeated. -/
def Obligations.CopyRepeatsLastBytes : Prop :=
  ∀ (dist len : Nat) (s : State), s.memoryOk → 1 ≤ dist → dist ≤ s.outCount →
    (copyBytes dist len s).outCount = s.outCount + len ∧
    (∀ i, i < len → Memory.read (copyBytes dist len s).out (s.outCount + i) =
      Memory.read (copyBytes dist len s).out (s.outCount + i - dist)) ∧
    (∀ i, i < len → Memory.read (copyBytes dist len s).out (s.outCount + i) =
      Memory.read s.out (s.outCount - dist + i % dist)) ∧
    (∀ a, a < s.outCount → Memory.read (copyBytes dist len s).out a = Memory.read s.out a)

/-- 45_inflate.md R231, R234; 30_encoding.md R98: a length element is the first half of a match and runs, in the same step,
the distance element its distance code names. -/
def Obligations.MatchRunsDistanceElement : Prop :=
  ∀ (sym d : Nat) (i j : Instr) (r : Reader) (s : State), 257 ≤ sym → sym ≤ 285 →
    decodeNumber .llsym sym = some i → s.pos + lengthExtra sym ≤ 8 * s.inLen →
    decodeSymAt s.dt s.inMem (8 * s.inLen) (s.pos + lengthExtra sym) = .ok (d, r) →
    decodeNumber .dsym d = some j →
    exec i s = exec j { s with
      pos := r.pos
      work := { s.work with
        len := lengthBase sym + bitsLsb s.inMem s.pos (lengthExtra sym), hval := r.hval, hcnt := r.hcnt, dsym := d } }

/-- 45_inflate.md R235, R236: the reserved symbols raise `InvalidSymbol`, at the cursor just after their code, nothing
appended: the spec's decision D15. -/
def Obligations.ReservedSymbolsRaise : Prop :=
  ∀ (i : Instr) (s : State), i = .llrsv286 ∨ i = .llrsv287 ∨ i = .drsv30 ∨ i = .drsv31 →
    exec i s = .next (s.failedAt .invalidSymbol s.pos)

/-- 30_encoding.md R108, R109: the base and the number of extra bits of every length and distance symbol, which the spec
marks as general knowledge of the format (D28; log 10); 10_state.md R29, marked there as derived; 30_encoding.md R100:
lengths are 3 to 258, distances 1 to 32768. -/
def Obligations.OperandRanges : Prop :=
  (List.range 29).map (fun k => (lengthBase (257 + k), lengthExtra (257 + k))) =
    [(3, 0), (4, 0), (5, 0), (6, 0), (7, 0), (8, 0), (9, 0), (10, 0), (11, 1), (13, 1), (15, 1), (17, 1), (19, 2),
      (23, 2), (27, 2), (31, 2), (35, 3), (43, 3), (51, 3), (59, 3), (67, 4), (83, 4), (99, 4), (115, 4), (131, 5),
      (163, 5), (195, 5), (227, 5), (258, 0)] ∧
  (List.range 30).map (fun d => (distBase d, distExtra d)) =
    [(1, 0), (2, 0), (3, 0), (4, 0), (5, 1), (7, 1), (9, 2), (13, 2), (17, 3), (25, 3), (33, 4), (49, 4), (65, 5),
      (97, 5), (129, 6), (193, 6), (257, 7), (385, 7), (513, 8), (769, 8), (1025, 9), (1537, 9), (2049, 10),
      (3073, 10), (4097, 11), (6145, 11), (8193, 12), (12289, 12), (16385, 13), (24577, 13)] ∧
  (∀ sym x, 257 ≤ sym → sym ≤ 285 → x < 2 ^ lengthExtra sym →
    3 ≤ lengthBase sym + x ∧ lengthBase sym + x ≤ 258) ∧
  (∀ d x, d < 30 → x < 2 ^ distExtra d → 1 ≤ distBase d + x ∧ distBase d + x ≤ 32768)

/-! ## The whole machine (44_block.md R200, R213; 60_exceptions.md; 70_reset_and_hazards.md) -/

/-- 44_block.md R200: in Idle, Done and Failed the core has no step. The name of the stop is the model's (log 7). -/
def Obligations.TerminalPhasesHaveNoStep : Prop :=
  ∀ s : State, s.quiet → s.phase = .idle ∨ s.phase = .done ∨ s.phase = .failed → step s = .fault (.noStep s.phase)

/-- 44_block.md R200, R213: the phases a step leads to. -/
def Obligations.PhaseOrder : Prop :=
  ∀ s t : State, s.quiet → step s = .next t → s.phase.follows t.phase = true

/-- 10_state.md R23 (a): "cursor never moves backward"; only the two host commands set it anew. -/
def Obligations.CursorNeverBackward : Prop :=
  ∀ s t : State, s.quiet → step s = .next t → s.pos ≤ t.pos

/-- 10_state.md R30; 20_memory.md R74: no byte of the output is ever changed or removed in a run. -/
def Obligations.OutputOnlyGrows : Prop :=
  ∀ s t : State, s.quiet → s.memoryOk → step s = .next t →
    s.outCount ≤ t.outCount ∧ ∀ a, a < s.outCount → Memory.read t.out a = Memory.read s.out a

/-- 10_state.md R20; 20_memory.md R60, R75: no step, a host command's included, writes `in`, `IN_LEN` or `START`. -/
def Obligations.LaunchParametersKept : Prop :=
  ∀ s t : State, step s = .next t → t.inMem = s.inMem ∧ t.inLen = s.inLen ∧ t.start = s.start

/-- 60_exceptions.md R261, R266; 43_codelength_rle.md R187: a step that fails records its kind and the cursor, and the kind is
one of the seven the core raises. -/
def Obligations.ErrorsAreRecorded : Prop :=
  ∀ s t : State, s.quiet → step s = .next t →
    (t.phase = .failed → t.errPos = t.pos ∧ t.err ≠ .noError ∧ t.err ≠ .malformedHeader ∧
      t.err ≠ .invalidEncoding) ∧
    (t.phase ≠ .failed → t.err = s.err ∧ t.errPos = s.errPos)

/-- 70_reset_and_hazards.md R308; 10_state.md R39: Done is reached only by the end of the final block, and `end_pos` is then
the cursor; no other step writes `end_pos`. -/
def Obligations.DoneOnlyAfterFinalBlock : Prop :=
  ∀ s t : State, s.quiet → step s = .next t →
    (t.phase = .done → s.phase = .decoding ∧ s.bfinal = true ∧ t.endPos = t.pos) ∧
    (t.phase ≠ .done → t.endPos = s.endPos)

/-- 10_state.md R21: no step reads a working register left by an earlier step: two states that differ in the working
registers only step alike. -/
def Obligations.WorkingRegistersAreDead : Prop :=
  ∀ (s : State) (w : Work), sameButWork (step (s.setWork w)) (step s)

/-- Every step keeps the memories in their canonical form and inside their address spaces (20_memory.md R60). -/
def Obligations.StepKeepsMemoryCanonical : Prop :=
  ∀ s t : State, s.memoryOk → step s = .next t → t.memoryOk

/-- 10_state.md R31, 45_inflate.md R238, marked there as derived: every step keeps the circular window a view of the output,
so that a realisation that retains `WSIZE` bytes reads what the full output holds. -/
def Obligations.StepKeepsWindowView : Prop :=
  ∀ s t : State, s.memoryOk → s.windowAgrees → step s = .next t → t.windowAgrees

/-- Every step keeps the phase, the block type, `raw_rem`, the error, the cursor and the tables in agreement
(10_state.md R23, R25, R28, R34; 44_block.md R201, R207; 60_exceptions.md R266). -/
def Obligations.StepKeepsConsistency : Prop :=
  ∀ s t : State, s.Consistent → s.tablesOk → step s = .next t → t.Consistent ∧ t.tablesOk

/-- The state after reset meets the invariants the three statements before keep (10_state.md R41). -/
def Obligations.ResetMeetsInvariants : Prop :=
  State.reset.memoryOk ∧ State.reset.windowAgrees ∧ State.reset.Consistent ∧ State.reset.tablesOk

/-- 44_block.md R213, marked there as derived: every step of a run consumes a bit, counts `raw_rem` down or moves `phase` on:
what is left of the run gets less. -/
def Obligations.StepLowersProgress : Prop :=
  ∀ s t : State, s.quiet → s.busy = true → step s = .next t → t.progress < s.progress

/-- 44_block.md R213, 70_reset_and_hazards.md R308, marked there as derived: every run ends in Done or Failed: "the core
cannot hang". -/
def Obligations.EveryRunEnds : Prop :=
  ∀ s : State, s.quiet → s.busy = true → s.Consistent → s.tablesOk →
    ∃ n t, n ≤ s.progress ∧ Sys2Proof.core.run n s = .next t ∧ t.ended = true

/-- `exec` never faults or refuses: for every element and every state it answers a next state (00_scope.md R12;
60_exceptions.md R260: errors are the only exceptional events, and an error is a next state, Failed). Which next state is
what the statements about the elements say. -/
def Obligations.EveryElementAnswersNext : Prop :=
  ∀ (i : Instr) (s : State), ∃ t, exec i s = .next t

/-- 70_reset_and_hazards.md R301, R303, R304 (the spec's decision D19): reset is taken in every phase, start outside a run, a
start in a run changes nothing but its own bit. That a command is taken as a step, reset before start, is the model's
choice (logs 5, 6); that the launch parameters survive both, log 4; the values of what has "no value" then, log 2. -/
def Obligations.HostCommands : Prop :=
  ∀ s : State,
    (s.ctrlRst = true →
      step s = .next { State.reset with inMem := s.inMem, inLen := s.inLen, start := s.start }) ∧
    (s.ctrlRst = false → s.ctrlGo = true → s.busy = false →
      step s = .next { State.reset with
        inMem := s.inMem, inLen := s.inLen, start := s.start, pos := 8 * s.start, phase := .awaitingHeader }) ∧
    (s.ctrlRst = false → s.ctrlGo = true → s.busy = true → step s = .next { s with ctrlGo := false })

/-- 70_reset_and_hazards.md R306 (the spec's decision D24): with `START >= IN_LEN` a start and one step fail with
`UnexpectedEndOfStream` at `8 * START`, whatever the bytes are. -/
def Obligations.LaunchBeyondInputFails : Prop :=
  ∀ s : State, s.inLen ≤ s.start →
    step s.startCommand = .next (s.startCommand.failedAt .unexpectedEndOfStream (8 * s.start))

/-- 10_state.md R38 (the spec's decision D2): STATUS holds RUN in bits 1:0, zeros in 3:2, ERR in 7:4; RUN is 0 in Idle, 1 in
the five phases of a run, 2 in Done, 3 in Failed; ERR is the code of the error's kind, which 60_exceptions.md R262 numbers
0 to 9 (the spec's decision D17). -/
def Obligations.StatusFields : Prop :=
  ∀ s : State,
    s.status.toNat % 4 =
      (match s.phase with
        | .idle => 0
        | .awaitingHeader => 1
        | .stored => 1
        | .fixedTables => 1
        | .dynamicTables => 1
        | .decoding => 1
        | .done => 2
        | .failed => 3) ∧
    s.status.toNat / 4 % 4 = 0 ∧
    s.status.toNat / 16 =
      (match s.err with
        | .noError => 0
        | .malformedHeader => 1
        | .unsupportedBlockType => 2
        | .malformedStoredBlock => 3
        | .invalidCodeLengths => 4
        | .invalidRunLength => 5
        | .invalidEncoding => 6
        | .invalidBackReference => 7
        | .unexpectedEndOfStream => 8
        | .invalidSymbol => 9) ∧
    (s.busy = true ↔ s.phase = .awaitingHeader ∨ s.phase = .stored ∨ s.phase = .fixedTables ∨
      s.phase = .dynamicTables ∨ s.phase = .decoding) ∧
    (s.ended = true ↔ s.phase = .done ∨ s.phase = .failed)

/-- 10_state.md R38, 20_memory.md R75, 60_exceptions.md R267 (the spec's decisions D2, D18): the host places input and reads
and writes `IN_LEN` and `START`, each alone, outside a run only, and each byte placed is the byte the core reads there; of a
failed run it sees the kind and the position alone, of a run that is done the bytes produced. That a start command written
and not yet taken counts as in the run is the model's choice (logs 5, 6). -/
def Obligations.HostAccess : Prop :=
  ∀ (s : State) (bs : List Byte) (n p : Nat),
    (s.busy = true ∨ s.ctrlGo = true →
      s.hostPlaceInput bs = none ∧ s.hostWriteInLen n = none ∧ s.hostWriteStart p = none ∧
        s.hostReadInLen = none ∧ s.hostReadStart = none ∧ s.hostLaunch bs p = none) ∧
    (s.busy = false → s.ctrlGo = false →
      (∃ t, s.hostPlaceInput bs = some t ∧ t = { s with inMem := t.inMem } ∧
        ∀ k b, bs[k]? = some b → Memory.read t.inMem k = b) ∧
      s.hostWriteInLen n = some { s with inLen := n } ∧ s.hostWriteStart p = some { s with start := p } ∧
      s.hostReadInLen = some s.inLen ∧ s.hostReadStart = some s.start ∧
      ∃ t, s.hostLaunch bs p = some t ∧ t = { s with inMem := t.inMem, inLen := bs.length, start := p } ∧
        ∀ k b, bs[k]? = some b → Memory.read t.inMem k = b) ∧
    (s.phase = .failed → s.result = some (.failed s.err s.errPos)) ∧
    (s.phase = .done → ∃ out, s.result = some (.done out s.endPos) ∧ out.length = s.outCount ∧
      ∀ k, k < s.outCount → out[k]? = some (Memory.read s.out k)) ∧
    (s.phase ≠ .failed → s.phase ≠ .done → s.result = none)

/-- 10_state.md R41 (the spec's decision D19): the values the spec gives after reset: Idle, no error, an empty output, `wp`
and CTRL at 0. -/
def Obligations.ResetValues : Prop :=
  State.reset.phase = .idle ∧ State.reset.err = .noError ∧ State.reset.outCount = 0 ∧ State.reset.wp = 0 ∧
    (∀ a, Memory.read State.reset.out a = 0) ∧ State.reset.ctrlGo = false ∧ State.reset.ctrlRst = false ∧
    State.reset.status = 0

/-- 44_block.md R200, R201; 45_inflate.md R231: a step runs the instruction that the bits at the cursor decode to, with the
cursor moved past its opcode, `bfinal` and `btype`, or `sym`, `hval` and `hcnt`, written by the fetch; in a setup phase the
block header whose header step came before; in raw-copy mode the raw byte. -/
def Obligations.StepRunsDecodedInstruction : Prop :=
  ∀ s : State, s.quiet →
    (∀ i p, s.phase = .awaitingHeader → decode .blkhdr [] s.inMem (8 * s.inLen) s.pos = .ok (i, p) →
      step s = exec i { s with
        pos := p, bfinal := decide (i.number % 2 = 1), btype := BitVec.ofNat 2 (i.number / 2) }) ∧
    (∀ i p, s.phase = .decoding → s.btype = 1 ∨ s.btype = 2 →
      decode .llsym s.lt s.inMem (8 * s.inLen) s.pos = .ok (i, p) →
      ∃ v, step s = exec i { s with
        pos := p, work := { s.work with hval := v, hcnt := p - s.pos, sym := i.number } }) ∧
    (s.phase = .decoding → s.btype = 0 → step s = exec .raw s) ∧
    (s.phase = .stored → step s = exec (.blockStored s.bfinal) s) ∧
    (s.phase = .fixedTables → step s = exec (.blockFixed s.bfinal) s) ∧
    (s.phase = .dynamicTables → step s = exec (.blockDynamic s.bfinal) s)
end

