-- ==== Sys2Proof/Laws/State.lean ====
section
/-! SUPPORT. One lemma per field per update of the state, true by rfl, so that no later proof unfolds a record update. -/

namespace Sys2Proof.Machine

@[simp] theorem State.raise_inMem (s : State) (k : ErrKind) : (s.raise k).inMem = s.inMem := rfl
@[simp] theorem State.raise_inLen (s : State) (k : ErrKind) : (s.raise k).inLen = s.inLen := rfl
@[simp] theorem State.raise_start (s : State) (k : ErrKind) : (s.raise k).start = s.start := rfl
@[simp] theorem State.raise_ctrlGo (s : State) (k : ErrKind) : (s.raise k).ctrlGo = s.ctrlGo := rfl
@[simp] theorem State.raise_ctrlRst (s : State) (k : ErrKind) : (s.raise k).ctrlRst = s.ctrlRst := rfl
@[simp] theorem State.raise_pos (s : State) (k : ErrKind) : (s.raise k).pos = s.pos := rfl
@[simp] theorem State.raise_phase (s : State) (k : ErrKind) : (s.raise k).phase = .failed := rfl
@[simp] theorem State.raise_bfinal (s : State) (k : ErrKind) : (s.raise k).bfinal = s.bfinal := rfl
@[simp] theorem State.raise_btype (s : State) (k : ErrKind) : (s.raise k).btype = s.btype := rfl
@[simp] theorem State.raise_rawRem (s : State) (k : ErrKind) : (s.raise k).rawRem = s.rawRem := rfl
@[simp] theorem State.raise_lt (s : State) (k : ErrKind) : (s.raise k).lt = s.lt := rfl
@[simp] theorem State.raise_dt (s : State) (k : ErrKind) : (s.raise k).dt = s.dt := rfl
@[simp] theorem State.raise_out (s : State) (k : ErrKind) : (s.raise k).out = s.out := rfl
@[simp] theorem State.raise_outCount (s : State) (k : ErrKind) : (s.raise k).outCount = s.outCount := rfl
@[simp] theorem State.raise_err (s : State) (k : ErrKind) : (s.raise k).err = k := rfl
@[simp] theorem State.raise_errPos (s : State) (k : ErrKind) : (s.raise k).errPos = s.pos := rfl
@[simp] theorem State.raise_endPos (s : State) (k : ErrKind) : (s.raise k).endPos = s.endPos := rfl
@[simp] theorem State.raise_win (s : State) (k : ErrKind) : (s.raise k).win = s.win := rfl
@[simp] theorem State.raise_wp (s : State) (k : ErrKind) : (s.raise k).wp = s.wp := rfl
@[simp] theorem State.raise_work (s : State) (k : ErrKind) : (s.raise k).work = s.work := rfl

@[simp] theorem State.setPos_inMem (s : State) (p : Nat) : (s.setPos p).inMem = s.inMem := rfl
@[simp] theorem State.setPos_inLen (s : State) (p : Nat) : (s.setPos p).inLen = s.inLen := rfl
@[simp] theorem State.setPos_start (s : State) (p : Nat) : (s.setPos p).start = s.start := rfl
@[simp] theorem State.setPos_ctrlGo (s : State) (p : Nat) : (s.setPos p).ctrlGo = s.ctrlGo := rfl
@[simp] theorem State.setPos_ctrlRst (s : State) (p : Nat) : (s.setPos p).ctrlRst = s.ctrlRst := rfl
@[simp] theorem State.setPos_pos (s : State) (p : Nat) : (s.setPos p).pos = p := rfl
@[simp] theorem State.setPos_phase (s : State) (p : Nat) : (s.setPos p).phase = s.phase := rfl
@[simp] theorem State.setPos_bfinal (s : State) (p : Nat) : (s.setPos p).bfinal = s.bfinal := rfl
@[simp] theorem State.setPos_btype (s : State) (p : Nat) : (s.setPos p).btype = s.btype := rfl
@[simp] theorem State.setPos_rawRem (s : State) (p : Nat) : (s.setPos p).rawRem = s.rawRem := rfl
@[simp] theorem State.setPos_lt (s : State) (p : Nat) : (s.setPos p).lt = s.lt := rfl
@[simp] theorem State.setPos_dt (s : State) (p : Nat) : (s.setPos p).dt = s.dt := rfl
@[simp] theorem State.setPos_out (s : State) (p : Nat) : (s.setPos p).out = s.out := rfl
@[simp] theorem State.setPos_outCount (s : State) (p : Nat) : (s.setPos p).outCount = s.outCount := rfl
@[simp] theorem State.setPos_err (s : State) (p : Nat) : (s.setPos p).err = s.err := rfl
@[simp] theorem State.setPos_errPos (s : State) (p : Nat) : (s.setPos p).errPos = s.errPos := rfl
@[simp] theorem State.setPos_endPos (s : State) (p : Nat) : (s.setPos p).endPos = s.endPos := rfl
@[simp] theorem State.setPos_win (s : State) (p : Nat) : (s.setPos p).win = s.win := rfl
@[simp] theorem State.setPos_wp (s : State) (p : Nat) : (s.setPos p).wp = s.wp := rfl
@[simp] theorem State.setPos_work (s : State) (p : Nat) : (s.setPos p).work = s.work := rfl

@[simp] theorem State.setWork_inMem (s : State) (w : Work) : (s.setWork w).inMem = s.inMem := rfl
@[simp] theorem State.setWork_inLen (s : State) (w : Work) : (s.setWork w).inLen = s.inLen := rfl
@[simp] theorem State.setWork_start (s : State) (w : Work) : (s.setWork w).start = s.start := rfl
@[simp] theorem State.setWork_ctrlGo (s : State) (w : Work) : (s.setWork w).ctrlGo = s.ctrlGo := rfl
@[simp] theorem State.setWork_ctrlRst (s : State) (w : Work) : (s.setWork w).ctrlRst = s.ctrlRst := rfl
@[simp] theorem State.setWork_pos (s : State) (w : Work) : (s.setWork w).pos = s.pos := rfl
@[simp] theorem State.setWork_phase (s : State) (w : Work) : (s.setWork w).phase = s.phase := rfl
@[simp] theorem State.setWork_bfinal (s : State) (w : Work) : (s.setWork w).bfinal = s.bfinal := rfl
@[simp] theorem State.setWork_btype (s : State) (w : Work) : (s.setWork w).btype = s.btype := rfl
@[simp] theorem State.setWork_rawRem (s : State) (w : Work) : (s.setWork w).rawRem = s.rawRem := rfl
@[simp] theorem State.setWork_lt (s : State) (w : Work) : (s.setWork w).lt = s.lt := rfl
@[simp] theorem State.setWork_dt (s : State) (w : Work) : (s.setWork w).dt = s.dt := rfl
@[simp] theorem State.setWork_out (s : State) (w : Work) : (s.setWork w).out = s.out := rfl
@[simp] theorem State.setWork_outCount (s : State) (w : Work) : (s.setWork w).outCount = s.outCount := rfl
@[simp] theorem State.setWork_err (s : State) (w : Work) : (s.setWork w).err = s.err := rfl
@[simp] theorem State.setWork_errPos (s : State) (w : Work) : (s.setWork w).errPos = s.errPos := rfl
@[simp] theorem State.setWork_endPos (s : State) (w : Work) : (s.setWork w).endPos = s.endPos := rfl
@[simp] theorem State.setWork_win (s : State) (w : Work) : (s.setWork w).win = s.win := rfl
@[simp] theorem State.setWork_wp (s : State) (w : Work) : (s.setWork w).wp = s.wp := rfl
@[simp] theorem State.setWork_work (s : State) (w : Work) : (s.setWork w).work = w := rfl

@[simp] theorem State.setReader_inMem (s : State) (r : Reader) : (s.setReader r).inMem = s.inMem := rfl
@[simp] theorem State.setReader_inLen (s : State) (r : Reader) : (s.setReader r).inLen = s.inLen := rfl
@[simp] theorem State.setReader_start (s : State) (r : Reader) : (s.setReader r).start = s.start := rfl
@[simp] theorem State.setReader_ctrlGo (s : State) (r : Reader) : (s.setReader r).ctrlGo = s.ctrlGo := rfl
@[simp] theorem State.setReader_ctrlRst (s : State) (r : Reader) : (s.setReader r).ctrlRst = s.ctrlRst := rfl
@[simp] theorem State.setReader_pos (s : State) (r : Reader) : (s.setReader r).pos = r.pos := rfl
@[simp] theorem State.setReader_phase (s : State) (r : Reader) : (s.setReader r).phase = s.phase := rfl
@[simp] theorem State.setReader_bfinal (s : State) (r : Reader) : (s.setReader r).bfinal = s.bfinal := rfl
@[simp] theorem State.setReader_btype (s : State) (r : Reader) : (s.setReader r).btype = s.btype := rfl
@[simp] theorem State.setReader_rawRem (s : State) (r : Reader) : (s.setReader r).rawRem = s.rawRem := rfl
@[simp] theorem State.setReader_lt (s : State) (r : Reader) : (s.setReader r).lt = s.lt := rfl
@[simp] theorem State.setReader_dt (s : State) (r : Reader) : (s.setReader r).dt = s.dt := rfl
@[simp] theorem State.setReader_out (s : State) (r : Reader) : (s.setReader r).out = s.out := rfl
@[simp] theorem State.setReader_outCount (s : State) (r : Reader) : (s.setReader r).outCount = s.outCount := rfl
@[simp] theorem State.setReader_err (s : State) (r : Reader) : (s.setReader r).err = s.err := rfl
@[simp] theorem State.setReader_errPos (s : State) (r : Reader) : (s.setReader r).errPos = s.errPos := rfl
@[simp] theorem State.setReader_endPos (s : State) (r : Reader) : (s.setReader r).endPos = s.endPos := rfl
@[simp] theorem State.setReader_win (s : State) (r : Reader) : (s.setReader r).win = s.win := rfl
@[simp] theorem State.setReader_wp (s : State) (r : Reader) : (s.setReader r).wp = s.wp := rfl
@[simp] theorem State.setReader_work (s : State) (r : Reader) : (s.setReader r).work = { s.work with hval := r.hval, hcnt := r.hcnt } := rfl

@[simp] theorem State.alignByte_inMem (s : State) : s.alignByte.inMem = s.inMem := rfl
@[simp] theorem State.alignByte_inLen (s : State) : s.alignByte.inLen = s.inLen := rfl
@[simp] theorem State.alignByte_start (s : State) : s.alignByte.start = s.start := rfl
@[simp] theorem State.alignByte_ctrlGo (s : State) : s.alignByte.ctrlGo = s.ctrlGo := rfl
@[simp] theorem State.alignByte_ctrlRst (s : State) : s.alignByte.ctrlRst = s.ctrlRst := rfl
@[simp] theorem State.alignByte_pos (s : State) : s.alignByte.pos = alignUp s.pos := rfl
@[simp] theorem State.alignByte_phase (s : State) : s.alignByte.phase = s.phase := rfl
@[simp] theorem State.alignByte_bfinal (s : State) : s.alignByte.bfinal = s.bfinal := rfl
@[simp] theorem State.alignByte_btype (s : State) : s.alignByte.btype = s.btype := rfl
@[simp] theorem State.alignByte_rawRem (s : State) : s.alignByte.rawRem = s.rawRem := rfl
@[simp] theorem State.alignByte_lt (s : State) : s.alignByte.lt = s.lt := rfl
@[simp] theorem State.alignByte_dt (s : State) : s.alignByte.dt = s.dt := rfl
@[simp] theorem State.alignByte_out (s : State) : s.alignByte.out = s.out := rfl
@[simp] theorem State.alignByte_outCount (s : State) : s.alignByte.outCount = s.outCount := rfl
@[simp] theorem State.alignByte_err (s : State) : s.alignByte.err = s.err := rfl
@[simp] theorem State.alignByte_errPos (s : State) : s.alignByte.errPos = s.errPos := rfl
@[simp] theorem State.alignByte_endPos (s : State) : s.alignByte.endPos = s.endPos := rfl
@[simp] theorem State.alignByte_win (s : State) : s.alignByte.win = s.win := rfl
@[simp] theorem State.alignByte_wp (s : State) : s.alignByte.wp = s.wp := rfl
@[simp] theorem State.alignByte_work (s : State) : s.alignByte.work = s.work := rfl

@[simp] theorem State.outAppend_inMem (s : State) (b : Byte) : (s.outAppend b).inMem = s.inMem := rfl
@[simp] theorem State.outAppend_inLen (s : State) (b : Byte) : (s.outAppend b).inLen = s.inLen := rfl
@[simp] theorem State.outAppend_start (s : State) (b : Byte) : (s.outAppend b).start = s.start := rfl
@[simp] theorem State.outAppend_ctrlGo (s : State) (b : Byte) : (s.outAppend b).ctrlGo = s.ctrlGo := rfl
@[simp] theorem State.outAppend_ctrlRst (s : State) (b : Byte) : (s.outAppend b).ctrlRst = s.ctrlRst := rfl
@[simp] theorem State.outAppend_pos (s : State) (b : Byte) : (s.outAppend b).pos = s.pos := rfl
@[simp] theorem State.outAppend_phase (s : State) (b : Byte) : (s.outAppend b).phase = s.phase := rfl
@[simp] theorem State.outAppend_bfinal (s : State) (b : Byte) : (s.outAppend b).bfinal = s.bfinal := rfl
@[simp] theorem State.outAppend_btype (s : State) (b : Byte) : (s.outAppend b).btype = s.btype := rfl
@[simp] theorem State.outAppend_rawRem (s : State) (b : Byte) : (s.outAppend b).rawRem = s.rawRem := rfl
@[simp] theorem State.outAppend_lt (s : State) (b : Byte) : (s.outAppend b).lt = s.lt := rfl
@[simp] theorem State.outAppend_dt (s : State) (b : Byte) : (s.outAppend b).dt = s.dt := rfl
@[simp] theorem State.outAppend_out (s : State) (b : Byte) : (s.outAppend b).out = Memory.write s.out s.outCount b := rfl
@[simp] theorem State.outAppend_outCount (s : State) (b : Byte) : (s.outAppend b).outCount = s.outCount + 1 := rfl
@[simp] theorem State.outAppend_err (s : State) (b : Byte) : (s.outAppend b).err = s.err := rfl
@[simp] theorem State.outAppend_errPos (s : State) (b : Byte) : (s.outAppend b).errPos = s.errPos := rfl
@[simp] theorem State.outAppend_endPos (s : State) (b : Byte) : (s.outAppend b).endPos = s.endPos := rfl
@[simp] theorem State.outAppend_win (s : State) (b : Byte) : (s.outAppend b).win = Memory.write s.win s.wp b := rfl
@[simp] theorem State.outAppend_wp (s : State) (b : Byte) : (s.outAppend b).wp = (s.wp + 1) % Config.windowSize := rfl
@[simp] theorem State.outAppend_work (s : State) (b : Byte) : (s.outAppend b).work = s.work := rfl

@[simp] theorem State.latchHeader_inMem (s : State) (f : Bool) (t : BitVec 2) (p : Phase) : (s.latchHeader f t p).inMem = s.inMem := rfl
@[simp] theorem State.latchHeader_inLen (s : State) (f : Bool) (t : BitVec 2) (p : Phase) : (s.latchHeader f t p).inLen = s.inLen := rfl
@[simp] theorem State.latchHeader_start (s : State) (f : Bool) (t : BitVec 2) (p : Phase) : (s.latchHeader f t p).start = s.start := rfl
@[simp] theorem State.latchHeader_ctrlGo (s : State) (f : Bool) (t : BitVec 2) (p : Phase) : (s.latchHeader f t p).ctrlGo = s.ctrlGo := rfl
@[simp] theorem State.latchHeader_ctrlRst (s : State) (f : Bool) (t : BitVec 2) (p : Phase) : (s.latchHeader f t p).ctrlRst = s.ctrlRst := rfl
@[simp] theorem State.latchHeader_pos (s : State) (f : Bool) (t : BitVec 2) (p : Phase) : (s.latchHeader f t p).pos = s.pos := rfl
@[simp] theorem State.latchHeader_phase (s : State) (f : Bool) (t : BitVec 2) (p : Phase) : (s.latchHeader f t p).phase = p := rfl
@[simp] theorem State.latchHeader_bfinal (s : State) (f : Bool) (t : BitVec 2) (p : Phase) : (s.latchHeader f t p).bfinal = f := rfl
@[simp] theorem State.latchHeader_btype (s : State) (f : Bool) (t : BitVec 2) (p : Phase) : (s.latchHeader f t p).btype = t := rfl
@[simp] theorem State.latchHeader_rawRem (s : State) (f : Bool) (t : BitVec 2) (p : Phase) : (s.latchHeader f t p).rawRem = s.rawRem := rfl
@[simp] theorem State.latchHeader_lt (s : State) (f : Bool) (t : BitVec 2) (p : Phase) : (s.latchHeader f t p).lt = s.lt := rfl
@[simp] theorem State.latchHeader_dt (s : State) (f : Bool) (t : BitVec 2) (p : Phase) : (s.latchHeader f t p).dt = s.dt := rfl
@[simp] theorem State.latchHeader_out (s : State) (f : Bool) (t : BitVec 2) (p : Phase) : (s.latchHeader f t p).out = s.out := rfl
@[simp] theorem State.latchHeader_outCount (s : State) (f : Bool) (t : BitVec 2) (p : Phase) : (s.latchHeader f t p).outCount = s.outCount := rfl
@[simp] theorem State.latchHeader_err (s : State) (f : Bool) (t : BitVec 2) (p : Phase) : (s.latchHeader f t p).err = s.err := rfl
@[simp] theorem State.latchHeader_errPos (s : State) (f : Bool) (t : BitVec 2) (p : Phase) : (s.latchHeader f t p).errPos = s.errPos := rfl
@[simp] theorem State.latchHeader_endPos (s : State) (f : Bool) (t : BitVec 2) (p : Phase) : (s.latchHeader f t p).endPos = s.endPos := rfl
@[simp] theorem State.latchHeader_win (s : State) (f : Bool) (t : BitVec 2) (p : Phase) : (s.latchHeader f t p).win = s.win := rfl
@[simp] theorem State.latchHeader_wp (s : State) (f : Bool) (t : BitVec 2) (p : Phase) : (s.latchHeader f t p).wp = s.wp := rfl
@[simp] theorem State.latchHeader_work (s : State) (f : Bool) (t : BitVec 2) (p : Phase) : (s.latchHeader f t p).work = s.work := rfl

@[simp] theorem State.appendLengths_inMem (s : State) (xs : List Nat) : (s.appendLengths xs).inMem = s.inMem := rfl
@[simp] theorem State.appendLengths_inLen (s : State) (xs : List Nat) : (s.appendLengths xs).inLen = s.inLen := rfl
@[simp] theorem State.appendLengths_start (s : State) (xs : List Nat) : (s.appendLengths xs).start = s.start := rfl
@[simp] theorem State.appendLengths_ctrlGo (s : State) (xs : List Nat) : (s.appendLengths xs).ctrlGo = s.ctrlGo := rfl
@[simp] theorem State.appendLengths_ctrlRst (s : State) (xs : List Nat) : (s.appendLengths xs).ctrlRst = s.ctrlRst := rfl
@[simp] theorem State.appendLengths_pos (s : State) (xs : List Nat) : (s.appendLengths xs).pos = s.pos := rfl
@[simp] theorem State.appendLengths_phase (s : State) (xs : List Nat) : (s.appendLengths xs).phase = s.phase := rfl
@[simp] theorem State.appendLengths_bfinal (s : State) (xs : List Nat) : (s.appendLengths xs).bfinal = s.bfinal := rfl
@[simp] theorem State.appendLengths_btype (s : State) (xs : List Nat) : (s.appendLengths xs).btype = s.btype := rfl
@[simp] theorem State.appendLengths_rawRem (s : State) (xs : List Nat) : (s.appendLengths xs).rawRem = s.rawRem := rfl
@[simp] theorem State.appendLengths_lt (s : State) (xs : List Nat) : (s.appendLengths xs).lt = s.lt := rfl
@[simp] theorem State.appendLengths_dt (s : State) (xs : List Nat) : (s.appendLengths xs).dt = s.dt := rfl
@[simp] theorem State.appendLengths_out (s : State) (xs : List Nat) : (s.appendLengths xs).out = s.out := rfl
@[simp] theorem State.appendLengths_outCount (s : State) (xs : List Nat) : (s.appendLengths xs).outCount = s.outCount := rfl
@[simp] theorem State.appendLengths_err (s : State) (xs : List Nat) : (s.appendLengths xs).err = s.err := rfl
@[simp] theorem State.appendLengths_errPos (s : State) (xs : List Nat) : (s.appendLengths xs).errPos = s.errPos := rfl
@[simp] theorem State.appendLengths_endPos (s : State) (xs : List Nat) : (s.appendLengths xs).endPos = s.endPos := rfl
@[simp] theorem State.appendLengths_win (s : State) (xs : List Nat) : (s.appendLengths xs).win = s.win := rfl
@[simp] theorem State.appendLengths_wp (s : State) (xs : List Nat) : (s.appendLengths xs).wp = s.wp := rfl
@[simp] theorem State.appendLengths_work (s : State) (xs : List Nat) : (s.appendLengths xs).work = { s.work with arr := s.work.arr ++ xs } := rfl

@[simp] theorem State.failedAt_inMem (s : State) (k : ErrKind) (p : Nat) : (s.failedAt k p).inMem = s.inMem := rfl
@[simp] theorem State.failedAt_inLen (s : State) (k : ErrKind) (p : Nat) : (s.failedAt k p).inLen = s.inLen := rfl
@[simp] theorem State.failedAt_start (s : State) (k : ErrKind) (p : Nat) : (s.failedAt k p).start = s.start := rfl
@[simp] theorem State.failedAt_ctrlGo (s : State) (k : ErrKind) (p : Nat) : (s.failedAt k p).ctrlGo = s.ctrlGo := rfl
@[simp] theorem State.failedAt_ctrlRst (s : State) (k : ErrKind) (p : Nat) : (s.failedAt k p).ctrlRst = s.ctrlRst := rfl
@[simp] theorem State.failedAt_pos (s : State) (k : ErrKind) (p : Nat) : (s.failedAt k p).pos = p := rfl
@[simp] theorem State.failedAt_phase (s : State) (k : ErrKind) (p : Nat) : (s.failedAt k p).phase = .failed := rfl
@[simp] theorem State.failedAt_bfinal (s : State) (k : ErrKind) (p : Nat) : (s.failedAt k p).bfinal = s.bfinal := rfl
@[simp] theorem State.failedAt_btype (s : State) (k : ErrKind) (p : Nat) : (s.failedAt k p).btype = s.btype := rfl
@[simp] theorem State.failedAt_rawRem (s : State) (k : ErrKind) (p : Nat) : (s.failedAt k p).rawRem = s.rawRem := rfl
@[simp] theorem State.failedAt_lt (s : State) (k : ErrKind) (p : Nat) : (s.failedAt k p).lt = s.lt := rfl
@[simp] theorem State.failedAt_dt (s : State) (k : ErrKind) (p : Nat) : (s.failedAt k p).dt = s.dt := rfl
@[simp] theorem State.failedAt_out (s : State) (k : ErrKind) (p : Nat) : (s.failedAt k p).out = s.out := rfl
@[simp] theorem State.failedAt_outCount (s : State) (k : ErrKind) (p : Nat) : (s.failedAt k p).outCount = s.outCount := rfl
@[simp] theorem State.failedAt_err (s : State) (k : ErrKind) (p : Nat) : (s.failedAt k p).err = k := rfl
@[simp] theorem State.failedAt_errPos (s : State) (k : ErrKind) (p : Nat) : (s.failedAt k p).errPos = p := rfl
@[simp] theorem State.failedAt_endPos (s : State) (k : ErrKind) (p : Nat) : (s.failedAt k p).endPos = s.endPos := rfl
@[simp] theorem State.failedAt_win (s : State) (k : ErrKind) (p : Nat) : (s.failedAt k p).win = s.win := rfl
@[simp] theorem State.failedAt_wp (s : State) (k : ErrKind) (p : Nat) : (s.failedAt k p).wp = s.wp := rfl
@[simp] theorem State.failedAt_work (s : State) (k : ErrKind) (p : Nat) : (s.failedAt k p).work = s.work := rfl

@[simp] theorem State.resetCommand_inMem (s : State) : s.resetCommand.inMem = s.inMem := rfl
@[simp] theorem State.resetCommand_inLen (s : State) : s.resetCommand.inLen = s.inLen := rfl
@[simp] theorem State.resetCommand_start (s : State) : s.resetCommand.start = s.start := rfl
@[simp] theorem State.resetCommand_ctrlGo (s : State) : s.resetCommand.ctrlGo = false := rfl
@[simp] theorem State.resetCommand_ctrlRst (s : State) : s.resetCommand.ctrlRst = false := rfl
@[simp] theorem State.resetCommand_pos (s : State) : s.resetCommand.pos = 0 := rfl
@[simp] theorem State.resetCommand_phase (s : State) : s.resetCommand.phase = .idle := rfl
@[simp] theorem State.resetCommand_bfinal (s : State) : s.resetCommand.bfinal = false := rfl
@[simp] theorem State.resetCommand_btype (s : State) : s.resetCommand.btype = 0 := rfl
@[simp] theorem State.resetCommand_rawRem (s : State) : s.resetCommand.rawRem = 0 := rfl
@[simp] theorem State.resetCommand_lt (s : State) : s.resetCommand.lt = [] := rfl
@[simp] theorem State.resetCommand_dt (s : State) : s.resetCommand.dt = [] := rfl
@[simp] theorem State.resetCommand_out (s : State) : s.resetCommand.out = [] := rfl
@[simp] theorem State.resetCommand_outCount (s : State) : s.resetCommand.outCount = 0 := rfl
@[simp] theorem State.resetCommand_err (s : State) : s.resetCommand.err = .noError := rfl
@[simp] theorem State.resetCommand_errPos (s : State) : s.resetCommand.errPos = 0 := rfl
@[simp] theorem State.resetCommand_endPos (s : State) : s.resetCommand.endPos = 0 := rfl
@[simp] theorem State.resetCommand_win (s : State) : s.resetCommand.win = [] := rfl
@[simp] theorem State.resetCommand_wp (s : State) : s.resetCommand.wp = 0 := rfl
@[simp] theorem State.resetCommand_work (s : State) : s.resetCommand.work = Work.empty := rfl

@[simp] theorem State.startCommand_inMem (s : State) : s.startCommand.inMem = s.inMem := rfl
@[simp] theorem State.startCommand_inLen (s : State) : s.startCommand.inLen = s.inLen := rfl
@[simp] theorem State.startCommand_start (s : State) : s.startCommand.start = s.start := rfl
@[simp] theorem State.startCommand_ctrlGo (s : State) : s.startCommand.ctrlGo = false := rfl
@[simp] theorem State.startCommand_ctrlRst (s : State) : s.startCommand.ctrlRst = false := rfl
@[simp] theorem State.startCommand_pos (s : State) : s.startCommand.pos = 8 * s.start := rfl
@[simp] theorem State.startCommand_phase (s : State) : s.startCommand.phase = .awaitingHeader := rfl
@[simp] theorem State.startCommand_bfinal (s : State) : s.startCommand.bfinal = false := rfl
@[simp] theorem State.startCommand_btype (s : State) : s.startCommand.btype = 0 := rfl
@[simp] theorem State.startCommand_rawRem (s : State) : s.startCommand.rawRem = 0 := rfl
@[simp] theorem State.startCommand_lt (s : State) : s.startCommand.lt = [] := rfl
@[simp] theorem State.startCommand_dt (s : State) : s.startCommand.dt = [] := rfl
@[simp] theorem State.startCommand_out (s : State) : s.startCommand.out = [] := rfl
@[simp] theorem State.startCommand_outCount (s : State) : s.startCommand.outCount = 0 := rfl
@[simp] theorem State.startCommand_err (s : State) : s.startCommand.err = .noError := rfl
@[simp] theorem State.startCommand_errPos (s : State) : s.startCommand.errPos = 0 := rfl
@[simp] theorem State.startCommand_endPos (s : State) : s.startCommand.endPos = 0 := rfl
@[simp] theorem State.startCommand_win (s : State) : s.startCommand.win = [] := rfl
@[simp] theorem State.startCommand_wp (s : State) : s.startCommand.wp = 0 := rfl
@[simp] theorem State.startCommand_work (s : State) : s.startCommand.work = Work.empty := rfl

@[simp] theorem State.endOfBlock_inMem (s : State) : s.endOfBlock.inMem = s.inMem := by
  unfold State.endOfBlock; split <;> rfl
@[simp] theorem State.endOfBlock_inLen (s : State) : s.endOfBlock.inLen = s.inLen := by
  unfold State.endOfBlock; split <;> rfl
@[simp] theorem State.endOfBlock_start (s : State) : s.endOfBlock.start = s.start := by
  unfold State.endOfBlock; split <;> rfl
@[simp] theorem State.endOfBlock_ctrlGo (s : State) : s.endOfBlock.ctrlGo = s.ctrlGo := by
  unfold State.endOfBlock; split <;> rfl
@[simp] theorem State.endOfBlock_ctrlRst (s : State) : s.endOfBlock.ctrlRst = s.ctrlRst := by
  unfold State.endOfBlock; split <;> rfl
@[simp] theorem State.endOfBlock_pos (s : State) : s.endOfBlock.pos = s.pos := by
  unfold State.endOfBlock; split <;> rfl
@[simp] theorem State.endOfBlock_bfinal (s : State) : s.endOfBlock.bfinal = s.bfinal := by
  unfold State.endOfBlock; split <;> rfl
@[simp] theorem State.endOfBlock_btype (s : State) : s.endOfBlock.btype = s.btype := by
  unfold State.endOfBlock; split <;> rfl
@[simp] theorem State.endOfBlock_rawRem (s : State) : s.endOfBlock.rawRem = s.rawRem := by
  unfold State.endOfBlock; split <;> rfl
@[simp] theorem State.endOfBlock_out (s : State) : s.endOfBlock.out = s.out := by
  unfold State.endOfBlock; split <;> rfl
@[simp] theorem State.endOfBlock_outCount (s : State) : s.endOfBlock.outCount = s.outCount := by
  unfold State.endOfBlock; split <;> rfl
@[simp] theorem State.endOfBlock_err (s : State) : s.endOfBlock.err = s.err := by
  unfold State.endOfBlock; split <;> rfl
@[simp] theorem State.endOfBlock_errPos (s : State) : s.endOfBlock.errPos = s.errPos := by
  unfold State.endOfBlock; split <;> rfl
@[simp] theorem State.endOfBlock_win (s : State) : s.endOfBlock.win = s.win := by
  unfold State.endOfBlock; split <;> rfl
@[simp] theorem State.endOfBlock_wp (s : State) : s.endOfBlock.wp = s.wp := by
  unfold State.endOfBlock; split <;> rfl
@[simp] theorem State.endOfBlock_work (s : State) : s.endOfBlock.work = s.work := by
  unfold State.endOfBlock; split <;> rfl
@[simp] theorem State.endOfBlock_lt (s : State) : s.endOfBlock.lt = [] := by
  unfold State.endOfBlock; split <;> rfl
@[simp] theorem State.endOfBlock_dt (s : State) : s.endOfBlock.dt = [] := by
  unfold State.endOfBlock; split <;> rfl
theorem State.endOfBlock_phase (s : State) :
    s.endOfBlock.phase = if s.bfinal then .done else .awaitingHeader := by
  unfold State.endOfBlock; split <;> rfl
theorem State.endOfBlock_endPos (s : State) :
    s.endOfBlock.endPos = if s.bfinal then s.pos else s.endPos := by
  unfold State.endOfBlock; split <;> rfl

@[simp] theorem State.setWork_self (s : State) : s.setWork s.work = s := rfl
@[simp] theorem State.setWork_setWork (s : State) (v w : Work) : (s.setWork v).setWork w = s.setWork w := rfl
@[simp] theorem State.setPos_setPos (s : State) (p q : Nat) : (s.setPos p).setPos q = s.setPos q := rfl
theorem State.raise_eq_failedAt (s : State) (k : ErrKind) : s.raise k = s.failedAt k s.pos := rfl

@[simp] theorem State.limit_def (s : State) : s.limit = 8 * s.inLen := rfl

end Sys2Proof.Machine
end

