-- ==== Sys2Proof/Laws/Memory.lean ====
section
/-! SUPPORT. The laws of memory: a read after a write, and the canonical form, which every memory operation keeps. -/

namespace Sys2Proof

@[simp] theorem Memory.read_nil (a : Nat) : Memory.read [] a = Memory.unlisted := rfl

theorem Memory.wfFrom_mono {m : Memory} {lo lo' : Nat} (hle : lo' ≤ lo) (h : Memory.wfFrom lo m = true) :
    Memory.wfFrom lo' m = true := by
  cases m with
  | nil => rfl
  | cons c m =>
    simp only [Memory.wfFrom, Bool.and_eq_true, decide_eq_true_eq] at h ⊢
    exact ⟨⟨by omega, h.1.2⟩, h.2⟩

/-- Below its first address a canonical memory reads as unlisted. -/
theorem Memory.read_of_lt {m : Memory} {lo a : Nat} (h : Memory.wfFrom lo m = true) (ha : a < lo) :
    Memory.read m a = Memory.unlisted := by
  induction m generalizing lo with
  | nil => rfl
  | cons c m ih =>
    simp only [Memory.wfFrom, Bool.and_eq_true, decide_eq_true_eq] at h
    have hne : c.1 ≠ a := by omega
    simp only [Memory.read, hne, if_false]
    exact ih h.2 (by omega)

theorem Memory.wfFrom_write {m : Memory} {lo a : Nat} (b : Byte) (h : Memory.wfFrom lo m = true) (ha : lo ≤ a) :
    Memory.wfFrom lo (Memory.write m a b) = true := by
  induction m generalizing lo with
  | nil =>
    unfold Memory.write
    split
    · rfl
    · simp [Memory.wfFrom, *]
  | cons c m ih =>
    have hc := h
    simp only [Memory.wfFrom, Bool.and_eq_true, decide_eq_true_eq] at h
    unfold Memory.write
    split
    · split
      · exact hc
      · simp only [Memory.wfFrom, Bool.and_eq_true, decide_eq_true_eq]
        exact ⟨⟨ha, by assumption⟩, ⟨by omega, h.1.2⟩, h.2⟩
    · split
      · split
        · exact Memory.wfFrom_mono (by omega) h.2
        · simp only [Memory.wfFrom, Bool.and_eq_true, decide_eq_true_eq]
          refine ⟨⟨ha, by assumption⟩, ?_⟩
          rename_i he _
          rw [he]; exact h.2
      · simp only [Memory.wfFrom, Bool.and_eq_true, decide_eq_true_eq]
        exact ⟨h.1, ih h.2 (by omega)⟩

/-- A write keeps the canonical form. -/
theorem Memory.wf_write {m : Memory} (a : Nat) (b : Byte) (h : Memory.wf m = true) :
    Memory.wf (Memory.write m a b) = true := Memory.wfFrom_write b h (Nat.zero_le a)

theorem Memory.read_write_from {m : Memory} {lo : Nat} (a a' : Nat) (b : Byte) (h : Memory.wfFrom lo m = true) :
    Memory.read (Memory.write m a b) a' = if a = a' then b else Memory.read m a' := by
  induction m generalizing lo with
  | nil =>
    unfold Memory.write
    split
    · rename_i hb; split <;> simp [Memory.read, hb]
    · simp [Memory.read]
  | cons c m ih =>
    simp only [Memory.wfFrom, Bool.and_eq_true, decide_eq_true_eq] at h
    have hlow : ∀ x, x < c.1 + 1 → Memory.read m x = Memory.unlisted := fun x hx => Memory.read_of_lt h.2 hx
    unfold Memory.write
    split
    · split
      · rename_i hb
        by_cases he : a = a'
        · subst he
          have hne : c.1 ≠ a := by omega
          simp [Memory.read, hne, hlow a (by omega), hb]
        · simp [he]
      · simp [Memory.read]
    · split
      · rename_i he
        split
        · rename_i hb
          by_cases h2 : a = a'
          · subst h2; simp [hlow a (by omega), hb]
          · have hne : c.1 ≠ a' := by omega
            simp [Memory.read, h2, hne]
        · by_cases h2 : a = a'
          · simp [Memory.read, h2]
          · have hne : c.1 ≠ a' := by omega
            simp [Memory.read, h2, hne]
      · by_cases h3 : c.1 = a'
        · have hne : a ≠ a' := by omega
          simp [Memory.read, h3, hne]
        · simp only [Memory.read, h3, if_false]
          exact ih h.2

/-- A read after a write, in a canonical memory: the byte written there, any other byte as before. -/
theorem Memory.read_write {m : Memory} (a a' : Nat) (b : Byte) (h : Memory.wf m = true) :
    Memory.read (Memory.write m a b) a' = if a = a' then b else Memory.read m a' :=
  Memory.read_write_from a a' b h

theorem Memory.below_write {m : Memory} {n a : Nat} (b : Byte) (h : Memory.below m n = true) (ha : a < n) :
    Memory.below (Memory.write m a b) n = true := by
  induction m with
  | nil =>
    unfold Memory.write
    split <;> simp [Memory.below, ha]
  | cons c m ih =>
    have hc := h
    simp only [Memory.below, List.all_cons, Bool.and_eq_true, decide_eq_true_eq] at h
    unfold Memory.write
    split
    · split
      · exact hc
      · simp only [Memory.below, List.all_cons, Bool.and_eq_true, decide_eq_true_eq]; exact ⟨ha, h.1, h.2⟩
    · split
      · split
        · exact h.2
        · simp only [Memory.below, List.all_cons, Bool.and_eq_true, decide_eq_true_eq]; exact ⟨ha, h.2⟩
      · simp only [Memory.below, List.all_cons, Bool.and_eq_true, decide_eq_true_eq]
        exact ⟨h.1, ih h.2⟩

theorem Memory.below_mono {m : Memory} {n n' : Nat} (h : Memory.below m n = true) (hn : n ≤ n') :
    Memory.below m n' = true := by
  simp only [Memory.below, List.all_eq_true, decide_eq_true_eq] at h ⊢
  exact fun c hc => Nat.lt_of_lt_of_le (h c hc) hn

/-- Above its addresses a memory reads as unlisted. -/
theorem Memory.read_of_below {m : Memory} {n a : Nat} (h : Memory.below m n = true) (ha : n ≤ a) :
    Memory.read m a = Memory.unlisted := by
  induction m with
  | nil => rfl
  | cons c m ih =>
    simp only [Memory.below, List.all_cons, Bool.and_eq_true, decide_eq_true_eq] at h
    have hne : c.1 ≠ a := by omega
    simp only [Memory.read, hne, if_false]
    exact ih h.2

theorem Memory.wfFrom_ofBytesFrom (a : Nat) (bs : List Byte) :
    Memory.wfFrom a (Memory.ofBytesFrom a bs) = true := by
  induction bs generalizing a with
  | nil => rfl
  | cons b bs ih =>
    unfold Memory.ofBytesFrom
    split
    · exact Memory.wfFrom_mono (Nat.le_succ a) (ih (a + 1))
    · simp only [Memory.wfFrom, Bool.and_eq_true, decide_eq_true_eq]
      exact ⟨⟨Nat.le_refl a, by assumption⟩, ih (a + 1)⟩

/-- Laying bytes out gives a memory in canonical form. -/
theorem Memory.wf_ofBytes (bs : List Byte) : Memory.wf (Memory.ofBytes bs) = true :=
  Memory.wfFrom_ofBytesFrom 0 bs

theorem Memory.read_ofBytesFrom (a k : Nat) (bs : List Byte) :
    Memory.read (Memory.ofBytesFrom a bs) (a + k) = bs.getD k Memory.unlisted := by
  induction bs generalizing a k with
  | nil => simp [Memory.ofBytesFrom]
  | cons b bs ih =>
    unfold Memory.ofBytesFrom
    cases k with
    | zero =>
      split
      · rename_i hb
        simp [hb, Memory.read_of_lt (Memory.wfFrom_ofBytesFrom (a + 1) bs) (Nat.lt_succ_self a)]
      · simp [Memory.read]
    | succ k =>
      have hk : a + (k + 1) = (a + 1) + k := by omega
      split
      · rw [hk, ih]; simp
      · have hne : a ≠ a + (k + 1) := by omega
        simp only [Memory.read, hne, if_false]
        rw [hk, ih]; simp

/-- The byte laid out at address `k` is the `k`-th byte. -/
theorem Memory.read_ofBytes (k : Nat) (bs : List Byte) :
    Memory.read (Memory.ofBytes bs) k = bs.getD k Memory.unlisted := by
  simpa [Memory.ofBytes] using Memory.read_ofBytesFrom 0 k bs

theorem Memory.below_ofBytesFrom (a : Nat) (bs : List Byte) :
    Memory.below (Memory.ofBytesFrom a bs) (a + bs.length) = true := by
  induction bs generalizing a with
  | nil => rfl
  | cons b bs ih =>
    have hn : a + 1 + bs.length = a + (b :: bs).length := by simp; omega
    have ih' := hn ▸ ih (a + 1)
    unfold Memory.ofBytesFrom
    split
    · exact ih'
    · simp only [Memory.below, List.all_cons, Bool.and_eq_true, decide_eq_true_eq]
      exact ⟨by simp, ih'⟩

/-- Bytes laid out from address 0 lie below their number. -/
theorem Memory.below_ofBytes (bs : List Byte) : Memory.below (Memory.ofBytes bs) bs.length = true := by
  have h := Memory.below_ofBytesFrom 0 bs
  rwa [Nat.zero_add] at h

/-- The memories of the state after reset are in canonical form. -/
theorem Machine.State.reset_memory_wf :
    Memory.wf Machine.State.reset.inMem = true ∧ Memory.wf Machine.State.reset.out = true ∧
      Memory.wf Machine.State.reset.win = true := ⟨rfl, rfl, rfl⟩

end Sys2Proof
end

