-- ==== Sys2Proof/Laws/Ops.lean ====
section
/-! SUPPORT. What each shared operation can do, said once: the sequencing of rules, the bit reader, the symbol decoder, the
output buffer, the copy loop, and the step. -/

namespace Sys2Proof

/-! Bits. -/

theorem inBit_lt_two (m : Memory) (p : Nat) : inBit m p < 2 := Nat.mod_lt _ (by decide)

theorem bitsLsb_lt (m : Memory) (p n : Nat) : bitsLsb m p n < 2 ^ n := by
  induction n with
  | zero => simp [bitsLsb]
  | succ n ih =>
    have hb := inBit_lt_two m (p + n)
    have h2 : inBit m (p + n) * 2 ^ n ≤ 1 * 2 ^ n := Nat.mul_le_mul_right _ (by omega)
    simp only [bitsLsb, Nat.pow_succ]
    omega

theorem bitsMsb_lt (m : Memory) (p n : Nat) : bitsMsb m p n < 2 ^ n := by
  induction n with
  | zero => simp [bitsMsb]
  | succ n ih =>
    have hb := inBit_lt_two m (p + n)
    simp only [bitsMsb, Nat.pow_succ]
    omega

theorem le_alignUp (p : Nat) : p ≤ alignUp p := by unfold alignUp; omega

theorem alignUp_lt (p : Nat) : alignUp p < p + 8 := by unfold alignUp; omega

theorem alignUp_mod (p : Nat) : alignUp p % 8 = 0 := by unfold alignUp; omega

theorem alignUp_le_of_le {p n : Nat} (h : p ≤ 8 * n) : alignUp p ≤ 8 * n := by unfold alignUp; omega

/-! The symbol decoder. -/

theorem prefixBit_eq_none {m : Memory} {limit : Nat} {r : Reader} :
    prefixBit m limit r = none ↔ limit < r.pos + 1 := by
  unfold prefixBit; split <;> simp_all

theorem prefixBit_eq_some {m : Memory} {limit : Nat} {r r' : Reader} :
    prefixBit m limit r = some r' ↔
      r.pos + 1 ≤ limit ∧ r' = ⟨r.pos + 1, r.hval * 2 + inBit m r.pos, r.hcnt + 1⟩ := by
  unfold prefixBit
  split
  · simp; omega
  · simp [eq_comm]; omega

/-- A matched code: at least one bit was taken, all of them inside the input, and the reader's key is a key of the
table. -/
theorem scanSym_ok {T : Table} {m : Memory} {limit n v : Nat} {r r' : Reader}
    (h : scanSym T m limit n r = .ok (v, r')) :
    r.pos < r'.pos ∧ r'.pos ≤ limit ∧ r'.pos + r.hcnt = r.pos + r'.hcnt ∧
      lookupCode T r'.hcnt r'.hval = some v := by
  induction n generalizing r with
  | zero => simp [scanSym] at h
  | succ n ih =>
    unfold scanSym at h
    split at h
    · simp at h
    · rename_i r1 hr1
      rw [prefixBit_eq_some] at hr1
      obtain ⟨hl, rfl⟩ := hr1
      split at h
      · rename_i w hw
        simp only [Except.ok.injEq, Prod.mk.injEq] at h
        obtain ⟨rfl, rfl⟩ := h
        exact ⟨by simp, hl, by simp; omega, hw⟩
      · obtain ⟨h1, h2, h3, h4⟩ := ih h
        simp only at h1 h3
        exact ⟨by omega, h2, by omega, h4⟩

/-- Where no code matches the input is drained: the reader is moved on by every bit that was left (42_huffman_decode.md
R172, R173). -/
theorem scanSym_error {T : Table} {m : Memory} {limit n : Nat} {r r' : Reader}
    (hn : n = limit - r.pos) (h : scanSym T m limit n r = .error r') :
    r'.pos = max r.pos limit := by
  induction n generalizing r with
  | zero =>
    simp only [scanSym, Except.error.injEq] at h
    subst h; omega
  | succ n ih =>
    unfold scanSym at h
    split at h
    · rename_i hr1
      rw [prefixBit_eq_none] at hr1
      omega
    · rename_i r1 hr1
      rw [prefixBit_eq_some] at hr1
      obtain ⟨hl, rfl⟩ := hr1
      split at h
      · simp at h
      · have := ih (by simp only; omega) h
        simp only at this
        omega

theorem decodeSymAt_ok {T : Table} {m : Memory} {limit p v : Nat} {r : Reader}
    (h : decodeSymAt T m limit p = .ok (v, r)) :
    p < r.pos ∧ r.pos ≤ limit ∧ r.pos = p + r.hcnt ∧ lookupCode T r.hcnt r.hval = some v := by
  obtain ⟨h1, h2, h3, h4⟩ := scanSym_ok h
  simp only at h1 h3
  exact ⟨h1, h2, by omega, h4⟩

theorem decodeSymAt_error {T : Table} {m : Memory} {limit p : Nat} {r : Reader}
    (h : decodeSymAt T m limit p = .error r) : r.pos = max p limit :=
  scanSym_error (r := ⟨p, 0, 0⟩) rfl h

/-- A looked-up symbol is the symbol of an entry with that key. -/
theorem lookupCode_some {T : Table} {l v x : Nat} (h : lookupCode T l v = some x) :
    ⟨l, v, x⟩ ∈ T := by
  induction T with
  | nil => simp [lookupCode] at h
  | cons c T ih =>
    unfold lookupCode at h
    split at h
    · rename_i hc
      simp only [Option.some.injEq] at h
      obtain ⟨rfl, rfl⟩ := hc
      subst h
      simp
    · exact List.mem_cons_of_mem _ (ih h)

/-- A table that fits an alphabet returns symbols of that alphabet only. -/
theorem lookupCode_lt {T : Table} {n l v x : Nat} (hT : Machine.Table.fits T n = true)
    (h : lookupCode T l v = some x) : x < n := by
  have := List.all_eq_true.mp hT _ (lookupCode_some h)
  simp only [Bool.and_eq_true, decide_eq_true_eq] at this
  exact this.2

namespace Machine

/-! Sequencing. -/

@[simp] theorem Res.bind_ok {α β : Type} (a : α) (s : State) (f : α → State → Res β) :
    (Res.ok a s).bind f = f a s := rfl

@[simp] theorem Res.bind_stop {α β : Type} (o : Host.Outcome State Fault Refusal) (f : α → State → Res β) :
    (Res.stop o : Res α).bind f = .stop o := rfl

@[simp] theorem Res.toOutcome_ok {α : Type} (a : α) (s : State) : (Res.ok a s).toOutcome = .next s := rfl

@[simp] theorem Res.toOutcome_stop {α : Type} (o : Host.Outcome State Fault Refusal) :
    (Res.stop o : Res α).toOutcome = o := rfl

@[simp] theorem Res.thenStep_ok {α : Type} (a : α) (s : State)
    (f : α → State → Host.Outcome State Fault Refusal) : (Res.ok a s).thenStep f = f a s := rfl

@[simp] theorem Res.thenStep_stop {α : Type} (o : Host.Outcome State Fault Refusal)
    (f : α → State → Host.Outcome State Fault Refusal) : (Res.stop o : Res α).thenStep f = o := rfl

@[simp] theorem raise_bind {α β : Type} (k : ErrKind) (s : State) (f : α → State → Res β) :
    (raise k s : Res α).bind f = raise k s := rfl

theorem raise_def {α : Type} (k : ErrKind) (s : State) : (raise k s : Res α) = .stop (.next (s.raise k)) := rfl

theorem Res.bind_eq_ok {α β : Type} {r : Res α} {f : α → State → Res β} {b : β} {t : State} :
    r.bind f = .ok b t ↔ ∃ a s, r = .ok a s ∧ f a s = .ok b t := by
  cases r <;> simp [and_assoc]

theorem Res.bind_eq_stop {α β : Type} {r : Res α} {f : α → State → Res β}
    {o : Host.Outcome State Fault Refusal} :
    r.bind f = .stop o ↔ r = .stop o ∨ ∃ a s, r = .ok a s ∧ f a s = .stop o := by
  cases r <;> simp [and_assoc]

/-- What holds of a rule: `P` of its value and state where it goes through, `Q` of the next state where the step ends
inside it, and no fault. -/
def Res.Post {α : Type} (r : Res α) (P : α → State → Prop) (Q : State → Prop) : Prop :=
  match r with
  | .ok a s => P a s
  | .stop (.next s) => Q s
  | .stop _ => False

@[simp] theorem Res.post_ok {α : Type} {a : α} {s : State} {P : α → State → Prop} {Q : State → Prop} :
    (Res.ok a s).Post P Q ↔ P a s := Iff.rfl

@[simp] theorem Res.post_raise {α : Type} {k : ErrKind} {s : State} {P : α → State → Prop} {Q : State → Prop} :
    (raise k s : Res α).Post P Q ↔ Q (s.raise k) := Iff.rfl

/-- The sequencing rule: what holds after the first part is what the second part starts from. -/
theorem Res.Post.bind {α β : Type} {r : Res α} {f : α → State → Res β} {P : α → State → Prop}
    {P' : β → State → Prop} {Q : State → Prop} (h : r.Post P Q) (hf : ∀ a s, P a s → (f a s).Post P' Q) :
    (r.bind f).Post P' Q := by
  cases r with
  | ok a s => exact hf a s h
  | stop o => cases o <;> exact h

theorem Res.Post.mono {α : Type} {r : Res α} {P P' : α → State → Prop} {Q Q' : State → Prop}
    (h : r.Post P Q) (hP : ∀ a s, P a s → P' a s) (hQ : ∀ s, Q s → Q' s) : r.Post P' Q' := by
  cases r with
  | ok a s => exact hP a s h
  | stop o => cases o <;> first | exact hQ _ h | exact h

/-- A rule that is a whole step ends in a next state of which `Q` holds. -/
theorem Res.Post.next {α : Type} {r : Res α} {P : α → State → Prop} {Q : State → Prop}
    (h : r.Post P Q) (hPQ : ∀ a s, P a s → Q s) : ∃ t, r.toOutcome = .next t ∧ Q t := by
  cases r with
  | ok a s => exact ⟨s, rfl, hPQ a s h⟩
  | stop o =>
    cases o with
    | next t => exact ⟨t, rfl, h⟩
    | fault f => exact absurd h id
    | refused r => exact absurd h id

/-! The bit reader. -/

/-- A read whose bits are all there, a read of no bits included. -/
theorem readBits_of_there {n : Nat} {s : State} (h : n = 0 ∨ s.pos + n ≤ 8 * s.inLen) :
    readBits n s = .ok (bitsLsb s.inMem s.pos n) (s.setPos (s.pos + n)) := by
  unfold readBits
  rw [if_neg (by simp; omega)]

theorem readBits_of_le {n : Nat} {s : State} (h : s.pos + n ≤ 8 * s.inLen) :
    readBits n s = .ok (bitsLsb s.inMem s.pos n) (s.setPos (s.pos + n)) :=
  readBits_of_there (.inr h)

theorem readBits_zero (s : State) : readBits 0 s = .ok 0 s := readBits_of_there (.inl rfl)

theorem readBits_of_gt {n : Nat} {s : State} (h0 : n ≠ 0) (h : 8 * s.inLen < s.pos + n) :
    readBits n s = raise .unexpectedEndOfStream s := by
  unfold readBits
  rw [if_pos (by simp; omega)]

/-- A read gives its bits and moves the cursor, or raises with the cursor where it was. -/
theorem readBits_post (n : Nat) (s : State) :
    (readBits n s).Post
      (fun v t => (n = 0 ∨ s.pos + n ≤ 8 * s.inLen) ∧ v = bitsLsb s.inMem s.pos n ∧ t = s.setPos (s.pos + n))
      (fun t => n ≠ 0 ∧ 8 * s.inLen < s.pos + n ∧ t = s.raise .unexpectedEndOfStream) := by
  by_cases h : n = 0 ∨ s.pos + n ≤ 8 * s.inLen
  · rw [readBits_of_there h]; exact ⟨h, rfl, rfl⟩
  · rw [readBits_of_gt (by omega) (by omega)]; exact ⟨by omega, by omega, rfl⟩

theorem decodeSym_of_ok {T : Table} {s : State} {v : Nat} {r : Reader}
    (h : decodeSymAt T s.inMem (8 * s.inLen) s.pos = .ok (v, r)) :
    decodeSym T s = .ok v (s.setReader r) := by
  unfold decodeSym; rw [State.limit_def, h]

theorem decodeSym_of_error {T : Table} {s : State} {r : Reader}
    (h : decodeSymAt T s.inMem (8 * s.inLen) s.pos = .error r) :
    decodeSym T s = raise .unexpectedEndOfStream (s.setReader r) := by
  unfold decodeSym; rw [State.limit_def, h]

/-- The symbol decoder gives a symbol of the table and moves the cursor on, inside the input, or raises at the end of the
input. -/
theorem decodeSym_post (T : Table) (s : State) :
    (decodeSym T s).Post
      (fun v t => ∃ r, decodeSymAt T s.inMem (8 * s.inLen) s.pos = .ok (v, r) ∧ s.pos < r.pos ∧
        r.pos ≤ 8 * s.inLen ∧ lookupCode T r.hcnt r.hval = some v ∧ t = s.setReader r)
      (fun t => ∃ r, decodeSymAt T s.inMem (8 * s.inLen) s.pos = .error r ∧ r.pos = max s.pos (8 * s.inLen) ∧
        t = (s.setReader r).raise .unexpectedEndOfStream) := by
  cases h : decodeSymAt T s.inMem (8 * s.inLen) s.pos with
  | error r =>
    rw [decodeSym_of_error h]
    exact ⟨r, rfl, decodeSymAt_error h, rfl⟩
  | ok x =>
    obtain ⟨v, r⟩ := x
    rw [decodeSym_of_ok h]
    obtain ⟨h1, h2, -, h4⟩ := decodeSymAt_ok h
    exact ⟨r, rfl, h1, h2, h4, rfl⟩

/-- The builder inside a rule gives the table and leaves the state, or raises. -/
theorem buildTable_post (lens : List Nat) (s : State) :
    (buildTable lens s).Post (fun T t => build lens = some T ∧ t = s)
      (fun t => build lens = none ∧ t = s.raise .invalidCodeLengths) := by
  unfold buildTable
  cases h : build lens <;> simp

/-- A code-length run that has reached its target is cut to it; the guard of 43_codelength_rle.md R187 stays unused. -/
theorem rleFinish_of_le {N : Nat} {s : State} (h : N ≤ s.work.arr.length) :
    rleFinish N s = .ok (s.work.arr.take N) (s.setWork { s.work with arr := s.work.arr.take N }) := by
  unfold rleFinish
  exact if_neg (by simp; omega)

/-! The output buffer. -/

theorem State.outAppend_memoryOk {s : State} (b : Byte) (h : s.memoryOk) : (s.outAppend b).memoryOk := by
  obtain ⟨h1, h2, h3, h4, h5, h6⟩ := h
  refine ⟨h1, Memory.wf_write _ _ h2, Memory.wf_write _ _ h3, ?_, ?_, ?_⟩
  · exact Memory.below_write b (Memory.below_mono h4 (Nat.le_succ _)) (Nat.lt_succ_self _)
  · exact Memory.below_write b h5 h6
  · exact Nat.mod_lt _ (by decide)

/-- A property that every append keeps is kept by a copy. -/
theorem copyBytes_induct {P : State → Prop} (h : ∀ s b, P s → P (s.outAppend b)) (dist n : Nat) (s : State)
    (hs : P s) : P (copyBytes dist n s) := by
  induction n generalizing s with
  | zero => exact hs
  | succ n ih => exact ih _ (h _ _ hs)

theorem copyBytes_outCount (dist n : Nat) (s : State) : (copyBytes dist n s).outCount = s.outCount + n := by
  induction n generalizing s with
  | zero => rfl
  | succ n ih => simp only [copyBytes, ih, State.outAppend_outCount]; omega

/-- What a copy writes: the output, its count and the window, and nothing else. -/
theorem copyBytes_frame (dist n : Nat) (s : State) :
    copyBytes dist n s = { s with
      out := (copyBytes dist n s).out, outCount := (copyBytes dist n s).outCount
      win := (copyBytes dist n s).win, wp := (copyBytes dist n s).wp } := by
  induction n generalizing s with
  | zero => rfl
  | succ n ih =>
    simp only [copyBytes]
    rw [ih]
    rfl

/-! The step. -/

theorem State.takeCommand_quiet {s : State} (h : s.quiet) : s.takeCommand = none := by
  unfold State.takeCommand; simp [h.1, h.2]

/-- With no command pending a step runs what fetch gives. -/
theorem step_of_quiet {s : State} (h : s.quiet) : step s = (fetch s).thenStep exec := by
  unfold step; rw [State.takeCommand_quiet h]

/-- What a command leaves: the state after reset or after start with the host's launch parameters, or, in a run, the state
without the dropped start. -/
theorem State.takeCommand_cases {s t : State} (h : s.takeCommand = some t) :
    (s.ctrlRst = true ∧ t = s.resetCommand) ∨
      (s.ctrlRst = false ∧ s.ctrlGo = true ∧ s.busy = false ∧ t = s.startCommand) ∨
      (s.ctrlRst = false ∧ s.ctrlGo = true ∧ s.busy = true ∧ t = { s with ctrlGo := false }) := by
  unfold State.takeCommand at h
  unfold State.busy
  split at h
  · simp_all
  · split at h
    · split at h <;> simp_all
    · simp at h

theorem step_of_command {s t : State} (h : s.takeCommand = some t) : step s = .next t := by
  unfold step; rw [h]

/-! The host's access to the launch parameters. -/

theorem State.hostOpen_iff {s : State} : s.hostOpen = true ↔ s.busy = false ∧ s.ctrlGo = false := by
  simp [State.hostOpen, State.busy]

/-- The preparation of a run sets the three launch parameters, where the host has access. -/
theorem State.hostLaunch_of_open {s : State} (h : s.hostOpen = true) (bs : List Byte) (p : Nat) :
    s.hostLaunch bs p = some { s with inMem := Memory.ofBytes bs, inLen := bs.length, start := p } := by
  have e : ∀ (m : Memory) (n : Nat), ({ s with inMem := m, inLen := n } : State).hostOpen = true := fun _ _ => h
  simp [State.hostLaunch, State.hostPlaceInput, State.hostWriteInLen, State.hostWriteStart, h, e]

/-- Where it has none, no part of it does anything. -/
theorem State.hostLaunch_of_closed {s : State} (h : s.hostOpen = false) (bs : List Byte) (p : Nat) :
    s.hostLaunch bs p = none := by
  simp [State.hostLaunch, State.hostPlaceInput, h]

/-! Runs. -/

theorem core_run_zero (s : State) : Sys2Proof.core.run 0 s = .next s := rfl

theorem core_run_next {n : Nat} {s t : State} (h : step s = .next t) :
    Sys2Proof.core.run (n + 1) s = Sys2Proof.core.run n t := by
  have e : ∀ (M : Host.Core) (x y : M.State), M.step x = .next y → M.run (n + 1) x = M.run n y := by
    intro M x y hxy
    simp only [Host.Core.run, hxy]
  exact e Sys2Proof.core s t h

end Machine

end Sys2Proof
end

