-- ==== Sys2Proof/Laws/Huffman.lean ====
section
/-! SUPPORT. One lemma per function of the table builder: what a lookup in each piece of a table answers, and which symbols
have a length. -/

namespace Sys2Proof

/-- A lookup in two tables, one after the other. -/
theorem lookupCode_append (A B : Table) (l v : Nat) :
    lookupCode (A ++ B) l v = (lookupCode A l v).or (lookupCode B l v) := by
  induction A with
  | nil => simp [lookupCode]
  | cons c A ih =>
    simp only [List.cons_append, lookupCode]
    split
    · simp
    · exact ih

/-- The codes given out at one length: the value `next + k` is the `k`-th symbol's. -/
theorem lookupCode_assignCodes (L next : Nat) (ss : List Nat) (l v : Nat) :
    lookupCode (assignCodes L next ss) l v = if l = L ∧ next ≤ v then ss[v - next]? else none := by
  induction ss generalizing next with
  | nil => simp [assignCodes, lookupCode]
  | cons x ss ih =>
    simp only [assignCodes, lookupCode]
    split
    · rename_i h
      obtain ⟨rfl, rfl⟩ := h
      simp
    · rename_i h
      rw [ih]
      by_cases hl : l = L
      · subst hl
        have hv : next ≠ v := fun e => h ⟨rfl, e⟩
        by_cases hle : next ≤ v
        · obtain ⟨k, hk⟩ : ∃ k, v - next = k + 1 := ⟨v - next - 1, by omega⟩
          have hk' : v - (next + 1) = k := by omega
          have h1 : next + 1 ≤ v := by omega
          simp [hle, h1, hk, hk']
        · have h1 : ¬ next + 1 ≤ v := by omega
          simp [hle, h1]
      · simp [hl]

/-- The entries given out at one length. -/
theorem mem_assignCodes {L next : Nat} {ss : List Nat} {c : Code} :
    c ∈ assignCodes L next ss ↔ c.len = L ∧ next ≤ c.val ∧ ss[c.val - next]? = some c.sym := by
  induction ss generalizing next with
  | nil => simp [assignCodes]
  | cons x ss ih =>
    simp only [assignCodes, List.mem_cons, ih]
    constructor
    · rintro (rfl | ⟨h1, h2, h3⟩)
      · simp
      · obtain ⟨k, hk⟩ : ∃ k, c.val - next = k + 1 := ⟨c.val - next - 1, by omega⟩
        have hk' : c.val - (next + 1) = k := by omega
        rw [hk'] at h3
        exact ⟨h1, by omega, by rw [hk]; simpa using h3⟩
    · rintro ⟨h1, h2, h3⟩
      by_cases he : c.val = next
      · left
        rw [he] at h3
        simp only [Nat.sub_self, List.getElem?_cons_zero, Option.some.injEq] at h3
        cases c
        simp_all
      · right
        obtain ⟨k, hk⟩ : ∃ k, c.val - next = k + 1 := ⟨c.val - next - 1, by omega⟩
        have hk' : c.val - (next + 1) = k := by omega
        rw [hk] at h3
        exact ⟨h1, by omega, by rw [hk']; simpa using h3⟩

/-- How many symbols have length `L`. -/
theorem symsOfLength_length (L b : Nat) (lens : List Nat) : (symsOfLength L b lens).length = lens.count L := by
  induction lens generalizing b with
  | nil => rfl
  | cons l ls ih =>
    simp only [symsOfLength]
    split
    · rename_i h; simp [ih, h]
    · rename_i h; simp [ih, h]

/-- The `k`-th symbol of length `L` is the one with `k` smaller symbols of that length. -/
theorem symsOfLength_getElem (L b : Nat) (lens : List Nat) (k s : Nat) :
    (symsOfLength L b lens)[k]? = some s ↔
      b ≤ s ∧ lens[s - b]? = some L ∧ (lens.take (s - b)).count L = k := by
  induction lens generalizing b k with
  | nil => simp [symsOfLength]
  | cons l ls ih =>
    have hsplit : ∀ s, b ≤ s → s ≠ b → s - b = (s - (b + 1)) + 1 := fun s h1 h2 => by omega
    simp only [symsOfLength]
    by_cases hl : l = L
    · rw [if_pos hl]
      cases k with
      | zero =>
        simp only [List.getElem?_cons_zero, Option.some.injEq]
        constructor
        · rintro rfl; simp [hl]
        · rintro ⟨h1, h2, h3⟩
          by_cases hne : b = s
          · exact hne
          · rw [hsplit s h1 (fun e => hne e.symm)] at h3
            simp [hl] at h3
      | succ k =>
        simp only [List.getElem?_cons_succ]
        rw [ih]
        constructor
        · rintro ⟨h1, h2, h3⟩
          refine ⟨by omega, ?_, ?_⟩ <;> rw [hsplit s (by omega) (by omega)] <;> simp [hl, h2, h3]
        · rintro ⟨h1, h2, h3⟩
          have hne : s ≠ b := by rintro rfl; simp at h3
          rw [hsplit s h1 hne] at h2 h3
          simp only [List.getElem?_cons_succ, List.take_succ_cons, hl, List.count_cons_self] at h2 h3
          exact ⟨by omega, h2, by omega⟩
    · rw [if_neg hl, ih]
      constructor
      · rintro ⟨h1, h2, h3⟩
        refine ⟨by omega, ?_, ?_⟩ <;> rw [hsplit s (by omega) (by omega)] <;> simp [hl, h2, h3]
      · rintro ⟨h1, h2, h3⟩
        have hne : s ≠ b := by rintro rfl; simp [hl] at h2
        rw [hsplit s h1 hne] at h2 h3
        simp only [List.getElem?_cons_succ, List.take_succ_cons] at h2 h3
        rw [List.count_cons_of_ne hl] at h3
        exact ⟨by omega, h2, h3⟩

/-- A used symbol, with its length. -/
theorem mem_usedSyms {b : Nat} {lens : List Nat} {s l : Nat} :
    (s, l) ∈ usedSyms b lens ↔ b ≤ s ∧ l ≠ 0 ∧ lens[s - b]? = some l := by
  induction lens generalizing b with
  | nil => simp [usedSyms]
  | cons x ls ih =>
    have hsplit : b ≤ s → s ≠ b → s - b = (s - (b + 1)) + 1 := fun h1 h2 => by omega
    have key : (s, l) ∈ usedSyms (b + 1) ls ↔ (b ≤ s ∧ s ≠ b) ∧ l ≠ 0 ∧ (x :: ls)[s - b]? = some l := by
      rw [ih]
      constructor
      · rintro ⟨h1, h2, h3⟩
        exact ⟨⟨by omega, by omega⟩, h2, by rw [hsplit (by omega) (by omega)]; simpa using h3⟩
      · rintro ⟨⟨h1, h2⟩, h3, h4⟩
        rw [hsplit h1 h2] at h4
        exact ⟨by omega, h3, by simpa using h4⟩
    simp only [usedSyms]
    split
    · rename_i hx
      rw [key]
      constructor
      · rintro ⟨⟨h1, -⟩, h2, h3⟩; exact ⟨h1, h2, h3⟩
      · rintro ⟨h1, h2, h3⟩
        refine ⟨⟨h1, ?_⟩, h2, h3⟩
        rintro rfl
        simp [hx] at h3
        exact h2 h3.symm
    · rename_i hx
      rw [List.mem_cons, key, Prod.mk.injEq]
      constructor
      · rintro (⟨rfl, rfl⟩ | ⟨⟨h1, -⟩, h2, h3⟩)
        · exact ⟨Nat.le_refl _, hx, by simp⟩
        · exact ⟨h1, h2, h3⟩
      · rintro ⟨h1, h2, h3⟩
        by_cases he : s = b
        · left
          subst he
          simp at h3
          exact ⟨rfl, h3.symm⟩
        · right; exact ⟨⟨h1, he⟩, h2, h3⟩

end Sys2Proof
end

