-- ==== Sys2Proof/Laws/Operands.lean ====
section
/-! SUPPORT. One lemma per operand read and per outcome: what it gives and what it leaves of the state, or what it raises. -/

namespace Sys2Proof.Machine

theorem readRepeat_of_le {base n : Nat} {s : State} (h : s.pos + n ≤ 8 * s.inLen) :
    readRepeat base n s = .ok (base + bitsLsb s.inMem s.pos n) (s.setPos (s.pos + n)) := by
  unfold readRepeat; rw [readBits_of_le h]; rfl

theorem readRepeat_of_gt {base n : Nat} {s : State} (h0 : n ≠ 0) (h : 8 * s.inLen < s.pos + n) :
    readRepeat base n s = raise .unexpectedEndOfStream s := by
  unfold readRepeat; rw [readBits_of_gt h0 h]; rfl

/-- The state after the length of a match has been read. -/
def State.withLength (s : State) (sym : Nat) : State :=
  { s with
    pos := s.pos + lengthExtra sym
    work := { s.work with len := lengthBase sym + bitsLsb s.inMem s.pos (lengthExtra sym) } }

@[simp] theorem State.withLength_inMem (s : State) (sym : Nat) : (s.withLength sym).inMem = s.inMem := rfl
@[simp] theorem State.withLength_inLen (s : State) (sym : Nat) : (s.withLength sym).inLen = s.inLen := rfl
@[simp] theorem State.withLength_start (s : State) (sym : Nat) : (s.withLength sym).start = s.start := rfl
@[simp] theorem State.withLength_phase (s : State) (sym : Nat) : (s.withLength sym).phase = s.phase := rfl
@[simp] theorem State.withLength_bfinal (s : State) (sym : Nat) : (s.withLength sym).bfinal = s.bfinal := rfl
@[simp] theorem State.withLength_btype (s : State) (sym : Nat) : (s.withLength sym).btype = s.btype := rfl
@[simp] theorem State.withLength_lt (s : State) (sym : Nat) : (s.withLength sym).lt = s.lt := rfl
@[simp] theorem State.withLength_dt (s : State) (sym : Nat) : (s.withLength sym).dt = s.dt := rfl
@[simp] theorem State.withLength_out (s : State) (sym : Nat) : (s.withLength sym).out = s.out := rfl
@[simp] theorem State.withLength_outCount (s : State) (sym : Nat) : (s.withLength sym).outCount = s.outCount := rfl
@[simp] theorem State.withLength_win (s : State) (sym : Nat) : (s.withLength sym).win = s.win := rfl
@[simp] theorem State.withLength_wp (s : State) (sym : Nat) : (s.withLength sym).wp = s.wp := rfl
@[simp] theorem State.withLength_err (s : State) (sym : Nat) : (s.withLength sym).err = s.err := rfl
@[simp] theorem State.withLength_errPos (s : State) (sym : Nat) : (s.withLength sym).errPos = s.errPos := rfl
@[simp] theorem State.withLength_endPos (s : State) (sym : Nat) : (s.withLength sym).endPos = s.endPos := rfl
@[simp] theorem State.withLength_rawRem (s : State) (sym : Nat) : (s.withLength sym).rawRem = s.rawRem := rfl
@[simp] theorem State.withLength_pos (s : State) (sym : Nat) : (s.withLength sym).pos = s.pos + lengthExtra sym := rfl

theorem readLength_of_there {sym : Nat} {s : State} (h : lengthExtra sym = 0 ∨ s.pos + lengthExtra sym ≤ 8 * s.inLen) :
    readLength sym s =
      .ok (lengthBase sym + bitsLsb s.inMem s.pos (lengthExtra sym)) (s.withLength sym) := by
  unfold readLength; rw [readBits_of_there h]; rfl

theorem readLength_of_gt {sym : Nat} {s : State} (h0 : lengthExtra sym ≠ 0) (h : 8 * s.inLen < s.pos + lengthExtra sym) :
    readLength sym s = raise .unexpectedEndOfStream s := by
  unfold readLength; rw [readBits_of_gt h0 h]; rfl

/-- The state after the distance code of a match has been read. -/
def State.withDistSymbol (s : State) (d : Nat) (r : Reader) : State :=
  { s with pos := r.pos, work := { s.work with hval := r.hval, hcnt := r.hcnt, dsym := d } }

@[simp] theorem State.withDistSymbol_inMem (s : State) (d : Nat) (r : Reader) : (s.withDistSymbol d r).inMem = s.inMem := rfl
@[simp] theorem State.withDistSymbol_inLen (s : State) (d : Nat) (r : Reader) : (s.withDistSymbol d r).inLen = s.inLen := rfl
@[simp] theorem State.withDistSymbol_start (s : State) (d : Nat) (r : Reader) : (s.withDistSymbol d r).start = s.start := rfl
@[simp] theorem State.withDistSymbol_phase (s : State) (d : Nat) (r : Reader) : (s.withDistSymbol d r).phase = s.phase := rfl
@[simp] theorem State.withDistSymbol_bfinal (s : State) (d : Nat) (r : Reader) : (s.withDistSymbol d r).bfinal = s.bfinal := rfl
@[simp] theorem State.withDistSymbol_btype (s : State) (d : Nat) (r : Reader) : (s.withDistSymbol d r).btype = s.btype := rfl
@[simp] theorem State.withDistSymbol_lt (s : State) (d : Nat) (r : Reader) : (s.withDistSymbol d r).lt = s.lt := rfl
@[simp] theorem State.withDistSymbol_dt (s : State) (d : Nat) (r : Reader) : (s.withDistSymbol d r).dt = s.dt := rfl
@[simp] theorem State.withDistSymbol_out (s : State) (d : Nat) (r : Reader) : (s.withDistSymbol d r).out = s.out := rfl
@[simp] theorem State.withDistSymbol_outCount (s : State) (d : Nat) (r : Reader) : (s.withDistSymbol d r).outCount = s.outCount := rfl
@[simp] theorem State.withDistSymbol_win (s : State) (d : Nat) (r : Reader) : (s.withDistSymbol d r).win = s.win := rfl
@[simp] theorem State.withDistSymbol_wp (s : State) (d : Nat) (r : Reader) : (s.withDistSymbol d r).wp = s.wp := rfl
@[simp] theorem State.withDistSymbol_err (s : State) (d : Nat) (r : Reader) : (s.withDistSymbol d r).err = s.err := rfl
@[simp] theorem State.withDistSymbol_errPos (s : State) (d : Nat) (r : Reader) : (s.withDistSymbol d r).errPos = s.errPos := rfl
@[simp] theorem State.withDistSymbol_endPos (s : State) (d : Nat) (r : Reader) : (s.withDistSymbol d r).endPos = s.endPos := rfl
@[simp] theorem State.withDistSymbol_rawRem (s : State) (d : Nat) (r : Reader) : (s.withDistSymbol d r).rawRem = s.rawRem := rfl
@[simp] theorem State.withDistSymbol_pos (s : State) (d : Nat) (r : Reader) : (s.withDistSymbol d r).pos = r.pos := rfl

theorem readDistSymbol_of_ok {s : State} {d : Nat} {r : Reader}
    (h : decodeSymAt s.dt s.inMem (8 * s.inLen) s.pos = .ok (d, r)) :
    readDistSymbol s = .ok d (s.withDistSymbol d r) := by
  unfold readDistSymbol; rw [decodeSym_of_ok h]; rfl

theorem readDistSymbol_of_error {s : State} {r : Reader}
    (h : decodeSymAt s.dt s.inMem (8 * s.inLen) s.pos = .error r) :
    readDistSymbol s = raise .unexpectedEndOfStream (s.setReader r) := by
  unfold readDistSymbol; rw [decodeSym_of_error h]; rfl

/-- The state after the distance of a match has been read. -/
def State.withDistance (s : State) (d : Nat) : State :=
  { s with
    pos := s.pos + distExtra d
    work := { s.work with dist := distBase d + bitsLsb s.inMem s.pos (distExtra d) } }

@[simp] theorem State.withDistance_inMem (s : State) (d : Nat) : (s.withDistance d).inMem = s.inMem := rfl
@[simp] theorem State.withDistance_inLen (s : State) (d : Nat) : (s.withDistance d).inLen = s.inLen := rfl
@[simp] theorem State.withDistance_start (s : State) (d : Nat) : (s.withDistance d).start = s.start := rfl
@[simp] theorem State.withDistance_phase (s : State) (d : Nat) : (s.withDistance d).phase = s.phase := rfl
@[simp] theorem State.withDistance_bfinal (s : State) (d : Nat) : (s.withDistance d).bfinal = s.bfinal := rfl
@[simp] theorem State.withDistance_btype (s : State) (d : Nat) : (s.withDistance d).btype = s.btype := rfl
@[simp] theorem State.withDistance_lt (s : State) (d : Nat) : (s.withDistance d).lt = s.lt := rfl
@[simp] theorem State.withDistance_dt (s : State) (d : Nat) : (s.withDistance d).dt = s.dt := rfl
@[simp] theorem State.withDistance_out (s : State) (d : Nat) : (s.withDistance d).out = s.out := rfl
@[simp] theorem State.withDistance_outCount (s : State) (d : Nat) : (s.withDistance d).outCount = s.outCount := rfl
@[simp] theorem State.withDistance_win (s : State) (d : Nat) : (s.withDistance d).win = s.win := rfl
@[simp] theorem State.withDistance_wp (s : State) (d : Nat) : (s.withDistance d).wp = s.wp := rfl
@[simp] theorem State.withDistance_err (s : State) (d : Nat) : (s.withDistance d).err = s.err := rfl
@[simp] theorem State.withDistance_errPos (s : State) (d : Nat) : (s.withDistance d).errPos = s.errPos := rfl
@[simp] theorem State.withDistance_endPos (s : State) (d : Nat) : (s.withDistance d).endPos = s.endPos := rfl
@[simp] theorem State.withDistance_rawRem (s : State) (d : Nat) : (s.withDistance d).rawRem = s.rawRem := rfl
@[simp] theorem State.withDistance_pos (s : State) (d : Nat) : (s.withDistance d).pos = s.pos + distExtra d := rfl

theorem readDistance_of_there {d : Nat} {s : State} (h : distExtra d = 0 ∨ s.pos + distExtra d ≤ 8 * s.inLen) :
    readDistance d s = .ok (distBase d + bitsLsb s.inMem s.pos (distExtra d)) (s.withDistance d) := by
  unfold readDistance; rw [readBits_of_there h]; rfl

theorem readDistance_of_gt {d : Nat} {s : State} (h0 : distExtra d ≠ 0) (h : 8 * s.inLen < s.pos + distExtra d) :
    readDistance d s = raise .unexpectedEndOfStream s := by
  unfold readDistance; rw [readBits_of_gt h0 h]; rfl

theorem ruleCopy_of_le {s : State} (h : s.work.dist ≤ s.outCount) :
    ruleCopy s = .ok () (copyBytes s.work.dist s.work.len s) := by
  unfold ruleCopy distTooFar; exact if_neg (by simp; omega)

theorem ruleCopy_of_gt {s : State} (h : s.outCount < s.work.dist) :
    ruleCopy s = raise .invalidBackReference s := by
  unfold ruleCopy distTooFar; exact if_pos (by simp; omega)

/-- The state after the three counts of a dynamic header have been read. -/
def State.withCounts (s : State) : State :=
  { s with
    pos := s.pos + 14
    work := { s.work with
      hlit := bitsLsb s.inMem s.pos 5, hdist := bitsLsb s.inMem (s.pos + 5) 5
      hclen := bitsLsb s.inMem (s.pos + 10) 4 } }

@[simp] theorem State.withCounts_inMem (s : State) : (s.withCounts).inMem = s.inMem := rfl
@[simp] theorem State.withCounts_inLen (s : State) : (s.withCounts).inLen = s.inLen := rfl
@[simp] theorem State.withCounts_start (s : State) : (s.withCounts).start = s.start := rfl
@[simp] theorem State.withCounts_phase (s : State) : (s.withCounts).phase = s.phase := rfl
@[simp] theorem State.withCounts_bfinal (s : State) : (s.withCounts).bfinal = s.bfinal := rfl
@[simp] theorem State.withCounts_btype (s : State) : (s.withCounts).btype = s.btype := rfl
@[simp] theorem State.withCounts_lt (s : State) : (s.withCounts).lt = s.lt := rfl
@[simp] theorem State.withCounts_dt (s : State) : (s.withCounts).dt = s.dt := rfl
@[simp] theorem State.withCounts_out (s : State) : (s.withCounts).out = s.out := rfl
@[simp] theorem State.withCounts_outCount (s : State) : (s.withCounts).outCount = s.outCount := rfl
@[simp] theorem State.withCounts_win (s : State) : (s.withCounts).win = s.win := rfl
@[simp] theorem State.withCounts_wp (s : State) : (s.withCounts).wp = s.wp := rfl
@[simp] theorem State.withCounts_err (s : State) : (s.withCounts).err = s.err := rfl
@[simp] theorem State.withCounts_errPos (s : State) : (s.withCounts).errPos = s.errPos := rfl
@[simp] theorem State.withCounts_endPos (s : State) : (s.withCounts).endPos = s.endPos := rfl
@[simp] theorem State.withCounts_rawRem (s : State) : (s.withCounts).rawRem = s.rawRem := rfl
@[simp] theorem State.withCounts_pos (s : State) : (s.withCounts).pos = s.pos + 14 := rfl

theorem readCounts_of_le {s : State} (h : s.pos + 14 ≤ 8 * s.inLen) : readCounts s = .ok () s.withCounts := by
  unfold readCounts
  rw [readBits_of_le (n := 5) (by omega), Res.bind_ok, readBits_of_le (n := 5) (by simp; omega), Res.bind_ok,
    readBits_of_le (n := 4) (by simp; omega)]
  rfl

end Sys2Proof.Machine
end

