-- ==== Sys2Proof/Laws/PerInstr.lean ====
section
/-! SUPPORT. The family Numbering: every element is the one its format and opcode number name (30_encoding.md R114), one
lemma per constructor. -/

namespace Sys2Proof.Laws.Numbering

/-- The opcode number of a well-formed element names that element in its format. -/
def Statement (i : Instr) : Prop := i.wellFormed = true → decodeNumber i.format i.number = some i

theorem blockStored (bfinal : Bool) : Statement (.blockStored bfinal) := by cases bfinal <;> exact fun _ => rfl
theorem blockFixed (bfinal : Bool) : Statement (.blockFixed bfinal) := by cases bfinal <;> exact fun _ => rfl
theorem blockDynamic (bfinal : Bool) : Statement (.blockDynamic bfinal) := by cases bfinal <;> exact fun _ => rfl
theorem blockReserved (bfinal : Bool) : Statement (.blockReserved bfinal) := by cases bfinal <;> exact fun _ => rfl
theorem raw : Statement .raw := fun _ => rfl
theorem clN (n : Nat) : Statement (.clN n) := by
  intro h
  have hn : n ≤ 15 := by simpa [Instr.wellFormed] using h
  simp [decodeNumber, Instr.format, Instr.number, hn]
theorem cl16 : Statement .cl16 := fun _ => rfl
theorem cl17 : Statement .cl17 := fun _ => rfl
theorem cl18 : Statement .cl18 := fun _ => rfl
theorem lit (b : Byte) : Statement (.lit b) := by
  intro _
  have hb : b.toNat ≤ 255 := by have := b.isLt; omega
  simp [decodeNumber, Instr.format, Instr.number, hb]
theorem eob : Statement .eob := fun _ => rfl
theorem len257 : Statement .len257 := fun _ => rfl
theorem len258 : Statement .len258 := fun _ => rfl
theorem len259 : Statement .len259 := fun _ => rfl
theorem len260 : Statement .len260 := fun _ => rfl
theorem len261 : Statement .len261 := fun _ => rfl
theorem len262 : Statement .len262 := fun _ => rfl
theorem len263 : Statement .len263 := fun _ => rfl
theorem len264 : Statement .len264 := fun _ => rfl
theorem len265 : Statement .len265 := fun _ => rfl
theorem len266 : Statement .len266 := fun _ => rfl
theorem len267 : Statement .len267 := fun _ => rfl
theorem len268 : Statement .len268 := fun _ => rfl
theorem len269 : Statement .len269 := fun _ => rfl
theorem len270 : Statement .len270 := fun _ => rfl
theorem len271 : Statement .len271 := fun _ => rfl
theorem len272 : Statement .len272 := fun _ => rfl
theorem len273 : Statement .len273 := fun _ => rfl
theorem len274 : Statement .len274 := fun _ => rfl
theorem len275 : Statement .len275 := fun _ => rfl
theorem len276 : Statement .len276 := fun _ => rfl
theorem len277 : Statement .len277 := fun _ => rfl
theorem len278 : Statement .len278 := fun _ => rfl
theorem len279 : Statement .len279 := fun _ => rfl
theorem len280 : Statement .len280 := fun _ => rfl
theorem len281 : Statement .len281 := fun _ => rfl
theorem len282 : Statement .len282 := fun _ => rfl
theorem len283 : Statement .len283 := fun _ => rfl
theorem len284 : Statement .len284 := fun _ => rfl
theorem len285 : Statement .len285 := fun _ => rfl
theorem llrsv286 : Statement .llrsv286 := fun _ => rfl
theorem llrsv287 : Statement .llrsv287 := fun _ => rfl
theorem dist0 : Statement .dist0 := fun _ => rfl
theorem dist1 : Statement .dist1 := fun _ => rfl
theorem dist2 : Statement .dist2 := fun _ => rfl
theorem dist3 : Statement .dist3 := fun _ => rfl
theorem dist4 : Statement .dist4 := fun _ => rfl
theorem dist5 : Statement .dist5 := fun _ => rfl
theorem dist6 : Statement .dist6 := fun _ => rfl
theorem dist7 : Statement .dist7 := fun _ => rfl
theorem dist8 : Statement .dist8 := fun _ => rfl
theorem dist9 : Statement .dist9 := fun _ => rfl
theorem dist10 : Statement .dist10 := fun _ => rfl
theorem dist11 : Statement .dist11 := fun _ => rfl
theorem dist12 : Statement .dist12 := fun _ => rfl
theorem dist13 : Statement .dist13 := fun _ => rfl
theorem dist14 : Statement .dist14 := fun _ => rfl
theorem dist15 : Statement .dist15 := fun _ => rfl
theorem dist16 : Statement .dist16 := fun _ => rfl
theorem dist17 : Statement .dist17 := fun _ => rfl
theorem dist18 : Statement .dist18 := fun _ => rfl
theorem dist19 : Statement .dist19 := fun _ => rfl
theorem dist20 : Statement .dist20 := fun _ => rfl
theorem dist21 : Statement .dist21 := fun _ => rfl
theorem dist22 : Statement .dist22 := fun _ => rfl
theorem dist23 : Statement .dist23 := fun _ => rfl
theorem dist24 : Statement .dist24 := fun _ => rfl
theorem dist25 : Statement .dist25 := fun _ => rfl
theorem dist26 : Statement .dist26 := fun _ => rfl
theorem dist27 : Statement .dist27 := fun _ => rfl
theorem dist28 : Statement .dist28 := fun _ => rfl
theorem dist29 : Statement .dist29 := fun _ => rfl
theorem drsv30 : Statement .drsv30 := fun _ => rfl
theorem drsv31 : Statement .drsv31 := fun _ => rfl

end Sys2Proof.Laws.Numbering
end

