-- ==== Sys2Proof/Tests/Slice0.lean ====
section
/-! SUPPORT. Tests: the smoke test of WellFormed, words written out from the spec's encodings, one step of each instruction
on a small state, and for each statement with hypotheses a state and operands that meet them together. Expected values are
those of 95_test_vectors.md (the vector is named) or are worked out by hand from the rule named. -/

set_option Elab.async false

namespace Sys2Proof.Tests

open Sys2Proof.Machine

/-- Bytes written as numbers. -/
def bytes (xs : List Nat) : List Byte := xs.map (BitVec.ofNat 8 ·)

/-- The state after reset with the input `xs` and the cursor at `p`. -/
def at_ (xs : List Nat) (p : Nat) : State :=
  { State.reset with inMem := Memory.ofBytes (bytes xs), inLen := xs.length, pos := p }

/-- The same in the phase `ph`. -/
def inPhase (ph : Phase) (xs : List Nat) (p : Nat) : State := { at_ xs p with phase := ph }

/-- A fixed block's body, with `out` already produced. -/
def body (xs : List Nat) (p : Nat) (out : List Nat) : State :=
  (bytes out).foldl State.outAppend
    { inPhase .decoding xs p with btype := 1, bfinal := true, lt := fixedLitLen, dt := fixedDist }

/-- A code-length run in progress, with `arr` already produced. -/
def running (xs : List Nat) (p : Nat) (arr : List Nat) : State :=
  (inPhase .dynamicTables xs p).setWork { Work.empty with arr := arr }

/-- The next state, where there is one. -/
def answer (o : Host.Outcome State Fault Refusal) : Option State :=
  match o with
  | .next t => some t
  | .fault _ => none
  | .refused _ => none

/-- What a step answers, from what `answer` shows. -/
theorem next_of {o : Host.Outcome State Fault Refusal} (h : (answer o).isSome = true) : ∃ t, o = .next t := by
  cases o with
  | next t => exact ⟨t, rfl⟩
  | fault f => simp [answer] at h
  | refused r => simp [answer] at h

/-- The error, where there is one. -/
def failure {ε α : Type} (x : Except ε α) : Option ε :=
  match x with
  | .ok _ => none
  | .error e => some e

theorem ok_of {ε α : Type} {x : Except ε α} {a : α} (h : x.toOption = some a) : x = .ok a := by
  cases x with
  | ok b => exact congrArg Except.ok (Option.some.inj h)
  | error e => simp [Except.toOption] at h

theorem error_of {ε α : Type} {x : Except ε α} {e : ε} (h : failure x = some e) : x = .error e := by
  cases x with
  | ok b => simp [failure] at h
  | error e' => exact congrArg Except.error (Option.some.inj h)

/-- Cursor, phase, error and bytes produced of a state, or its code lengths so far. -/
structure Shown where
  pos : Nat
  phase : Phase
  err : ErrKind
  data : List Nat
deriving DecidableEq, Repr

/-- What a step leaves: cursor, phase, error, output. -/
def shown (o : Host.Outcome State Fault Refusal) : Option Shown :=
  (answer o).map fun t => ⟨t.pos, t.phase, t.err, (Memory.bytes t.out 0 t.outCount).map BitVec.toNat⟩

/-- What a step leaves of a code-length run: cursor, phase, error, lengths. -/
def shownLengths (o : Host.Outcome State Fault Refusal) : Option Shown :=
  (answer o).map fun t => ⟨t.pos, t.phase, t.err, t.work.arr⟩

/-- The meta table of vector HB14. -/
def hb14 : List Nat := [0, 3, 0, 2, 3, 0, 0, 0, 0, 0, 0, 0, 0, 0, 0, 0, 3, 3, 2]

def hb14Table : Table := (build hb14).getD []

/-- The stream of program P3. -/
def p3 : List Nat :=
  [0x25, 0xC0, 0x37, 0x01, 0x00, 0x00, 0x0C, 0x02, 0x30, 0xAD, 0xE9, 0xF0, 0x6F, 0x81, 0x83, 0xA8, 0xD9, 0xFB, 0x00]

/-! ## WellFormed (43_codelength_rle.md R182: meta symbols 0 to 15 are lengths) -/

theorem test_wf_accepts_last_length : (Instr.clN 15).wellFormed = true := by decide
theorem test_wf_refuses_length_16 : (Instr.clN 16).wellFormed = false := by decide
theorem test_wf_accepts_every_other_kind :
    [Instr.blockReserved true, .raw, .cl18, .lit 255, .eob, .len285, .llrsv287, .dist29, .drsv31].all
      Instr.wellFormed = true := by decide

/-! ## Decoding: words from the spec -/

/-- BTYPE 0 to 3 with BFINAL 0 and 1 (30_encoding.md R91, R92): bit 0 final, bits 2..1 type. -/
theorem test_decode_headers :
    (List.range 8).map (fun h => (decode .blkhdr [] (Memory.ofBytes [BitVec.ofNat 8 h]) 8 0).toOption) =
      [some (.blockStored false, 3), some (.blockStored true, 3), some (.blockFixed false, 3),
        some (.blockFixed true, 3), some (.blockDynamic false, 3), some (.blockDynamic true, 3),
        some (.blockReserved false, 3), some (.blockReserved true, 3)] := by decide +kernel

/-- One header bit is not there. -/
theorem test_decode_header_cut : decode .blkhdr [] (Memory.ofBytes [0x07]) 8 6 = .error .endOfInput :=
  error_of (by decide +kernel)

/-- A raw byte has no opcode bits (30_encoding.md R114). -/
theorem test_decode_raw : decode .raw [] (Memory.ofBytes [0x68]) 8 0 = .ok (.raw, 0) :=
  ok_of (by decide +kernel)

/-- Codes of HB14, first stream bit first: 00 is 3, 01 is 18, 100 is 1, 101 is 4, 110 is 16, 111 is 17. -/
theorem test_decode_cl :
    [0x00, 0x02, 0x01, 0x05, 0x03, 0x07].map
        (fun b => (decode .clsym hb14Table (Memory.ofBytes [BitVec.ofNat 8 b]) 8 0).toOption) =
      [some (.clN 3, 2), some (.cl18, 2), some (.clN 1, 3), some (.clN 4, 3), some (.cl16, 3), some (.cl17, 3)] := by
  decide +kernel

/-- HD2, HD3, and the codes of P5, M1, M2, E6 and E6b at bit 11 or 3: symbols 0x68, 256, 259, 284, 285, 286, 287. -/
theorem test_decode_litlen :
    [([0xCB, 0x48], 3), ([0x03, 0x00], 3), ([0x4B, 0x04, 0x03, 0x00], 11), ([0xAB, 0x18, 0xF9, 0, 0], 11),
        ([0xAB, 0x18, 0x05, 0], 11), ([0x1B, 0x03, 0x00], 3), ([0x1B, 0x07, 0x00], 3)].map
        (fun x => (decode .llsym fixedLitLen (Memory.ofBytes (bytes x.1)) (8 * x.1.length) x.2).toOption) =
      [some (.lit 0x68, 11), some (.eob, 10), some (.len259, 18), some (.len284, 19), some (.len285, 19),
        some (.llrsv286, 11), some (.llrsv287, 11)] := by decide +kernel

/-- A 9-bit literal: 255 is nine 1 bits (30_encoding.md R106). -/
theorem test_decode_nine_bit_literal :
    decode .llsym fixedLitLen (Memory.ofBytes [0xFF, 0x01]) 16 0 = .ok (.lit 255, 9) :=
  ok_of (by decide +kernel)

/-- Distance codes 00000, 00001, 00010, 11101, 11110, 11111, first stream bit first (30_encoding.md R107). -/
theorem test_decode_dist :
    [0x00, 0x10, 0x08, 0x17, 0x0F, 0x1F].map
        (fun b => (decode .dsym fixedDist (Memory.ofBytes [BitVec.ofNat 8 b]) 8 0).toOption) =
      [some (.dist0, 5), some (.dist1, 5), some (.dist2, 5), some (.dist29, 5), some (.drsv30, 5),
        some (.drsv31, 5)] := by decide +kernel

/-- A number above a format's last is refused by name. -/
theorem test_decode_refuses_numbers :
    decodeOpcode .blkhdr 8 = .error (.noElement .blkhdr 8) ∧ decodeOpcode .clsym 19 = .error (.noElement .clsym 19) ∧
      decodeOpcode .llsym 288 = .error (.noElement .llsym 288) ∧
      decodeOpcode .dsym 32 = .error (.noElement .dsym 32) := ⟨rfl, rfl, rfl, rfl⟩

/-- The encoder writes the stream bits of E6, P2 and HB14: `1 1 0`, `10011000`, `0000000`, `11000110`, `111`. -/
theorem test_encode_words :
    encode [] (.blockFixed true) = some [1, 1, 0] ∧ encode fixedLitLen (.lit 0x68) = some [1, 0, 0, 1, 1, 0, 0, 0] ∧
      encode fixedLitLen .eob = some [0, 0, 0, 0, 0, 0, 0] ∧
      encode fixedLitLen .llrsv286 = some [1, 1, 0, 0, 0, 1, 1, 0] ∧ encode fixedDist .dist1 = some [0, 0, 0, 0, 1] ∧
      encode hb14Table .cl17 = some [1, 1, 1] ∧ encode hb14Table (.clN 2) = none := by decide +kernel

/-- A bare table word: LIT's and LEN285's 9-bit numbers, a header, a distance symbol (log 11). -/
theorem test_decode_table_words :
    decodeTableWord 16 0 = some (.lit 0) ∧ decodeTableWord 16 285 = some .len285 ∧
      decodeTableWord 8 6 = some (.blockReserved false) ∧ decodeTableWord 8 31 = some .drsv31 := by decide +kernel

/-! ## The primitives -/

/-- HB1 (41_huffman_build.md R159). -/
theorem test_build_hb1 :
    build [3, 3, 3, 3, 3, 2, 4, 4] = some [⟨2, 0, 5⟩, ⟨3, 2, 0⟩, ⟨3, 3, 1⟩, ⟨3, 4, 2⟩, ⟨3, 5, 3⟩, ⟨3, 6, 4⟩,
      ⟨4, 14, 6⟩, ⟨4, 15, 7⟩] := by decide +kernel

/-- HB4, HB5, HB7, HB8, HB10, HB11, HB15. -/
theorem test_build_edges :
    build [0, 1, 0] = some [⟨1, 0, 1⟩, ⟨1, 1, 1⟩] ∧ build [0, 2, 0] = some [⟨2, 0, 1⟩] ∧ build [0, 0, 0] = some [] ∧
      build [2, 2] = some [⟨2, 0, 0⟩, ⟨2, 1, 1⟩] ∧ build [1, 1, 1] = none ∧ build [1, 2, 2, 2] = none ∧
      build [1, 15, 15] = some [⟨1, 0, 0⟩, ⟨15, 16384, 1⟩, ⟨15, 16385, 2⟩] := by decide +kernel

/-- HB12 and HB12b: a complete code that reaches length 15, and one symbol too many. -/
theorem test_build_reaches_maxbits :
    ((build ((List.range 15).map (· + 1) ++ [15])).map fun T => lookupCode T 15 32767) = some (some 15) ∧
      build ((List.range 15).map (· + 1) ++ [15, 15]) = none := by decide +kernel

/-- HD5, HD6: the drained input; the end of the input is the reader's cursor. -/
theorem test_decodeSym_drains :
    shown ((decodeSym ((build [1, 2, 3]).getD []) (inPhase .decoding [0x07] 0)).toOutcome) =
        some ⟨8, .failed, .unexpectedEndOfStream, []⟩ ∧
      shown ((decodeSym [] (inPhase .decoding [0x00] 0)).toOutcome) =
        some ⟨8, .failed, .unexpectedEndOfStream, []⟩ := by decide +kernel

/-- BR2, BR8, BR9: reads that span bytes. -/
theorem test_readBits_spans :
    bitsLsb (Memory.ofBytes [0xB5, 0x01]) 3 7 = 54 ∧ bitsLsb (Memory.ofBytes [0xFF, 0x34, 0x12, 0x80]) 7 16 = 0x2469 ∧
      bitsLsb (Memory.ofBytes [0x12, 0x34, 0x56]) 4 16 = 0x6341 := by decide +kernel

/-- R131's corner case (D5): a read of no bits returns 0 beyond the end of the input too, where a read of one raises; so does
DIST0, which has no extra bits. -/
theorem test_readBits_none_beyond_end :
    readBits 0 (at_ [0xB5] 24) = .ok 0 (at_ [0xB5] 24) ∧
      shown ((readBits 1 (at_ [0xB5] 24)).toOutcome) = some ⟨24, .failed, .unexpectedEndOfStream, []⟩ ∧
      shown (exec .dist0 ((body [] 8 [7]).setWork { Work.empty with len := 3 })) =
        some ⟨8, .decoding, .noError, [7, 7, 7, 7]⟩ :=
  ⟨rfl, by decide +kernel, by decide +kernel⟩

/-- The memory's canonical form: writing 0 removes the cell. -/
theorem test_memory_canonical :
    Memory.write (Memory.write [] 5 7) 5 0 = [] ∧ Memory.write (Memory.write [] 5 7) 2 9 = [(2, 9), (5, 7)] := by
  decide +kernel

/-! ## One step of each instruction -/

/-- P1: header, stored header, raw byte; BK3's end of body. -/
theorem test_stored_steps :
    shown (step (inPhase .awaitingHeader [0x01, 5, 0, 0xFA, 0xFF, 0x68] 0)) = some ⟨3, .stored, .noError, []⟩ ∧
      shown (step (inPhase .stored [0x01, 5, 0, 0xFA, 0xFF, 0x68] 3)) = some ⟨40, .decoding, .noError, []⟩ ∧
      shown (step { inPhase .decoding [0x01, 5, 0, 0xFA, 0xFF, 0x68] 40 with rawRem := 5 }) =
        some ⟨48, .decoding, .noError, [0x68]⟩ ∧
      shown (step { inPhase .decoding [0x01, 0, 0, 0xFF, 0xFF] 40 with bfinal := true }) =
        some ⟨40, .done, .noError, []⟩ := by decide +kernel

/-- E2: LEN and NLEN are no complements. -/
theorem test_stored_malformed :
    shown (step (inPhase .stored [0x01, 5, 0, 0xFA, 0xFE, 0x68] 3)) = some ⟨40, .failed, .malformedStoredBlock, []⟩ := by
  decide +kernel

/-- BK8: fixed header and setup. -/
theorem test_fixed_steps :
    shown (step (inPhase .awaitingHeader [0x03, 0x00] 0)) = some ⟨3, .fixedTables, .noError, []⟩ ∧
      shown (step (inPhase .fixedTables [0x03, 0x00] 3)) = some ⟨3, .decoding, .noError, []⟩ := by decide +kernel

/-- P3: dynamic header and setup, with the codes of 'a', EOB and the distance symbol 0. -/
theorem test_dynamic_steps :
    shown (step (inPhase .awaitingHeader p3 0)) = some ⟨3, .dynamicTables, .noError, []⟩ ∧
      ((answer (step (inPhase .dynamicTables p3 3))).map fun t =>
        [some t.pos, lookupCode t.lt 1 0, lookupCode t.lt 3 4, lookupCode t.dt 1 0, lookupCode t.dt 1 1]) =
        some [some 122, some 97, some 256, some 0, some 0] := by decide +kernel

/-- E8, E9, E10, E11: the ways a dynamic header is rejected. -/
theorem test_dynamic_rejects :
    shown (step (inPhase .dynamicTables [5, 0xC0, 1, 4, 0, 0, 0, 0x40, 0x10] 3)) =
        some ⟨71, .failed, .invalidCodeLengths, []⟩ ∧
      shown (step (inPhase .dynamicTables [5, 0, 2, 0x24] 3)) = some ⟨30, .failed, .invalidRunLength, []⟩ ∧
      shown (step (inPhase .dynamicTables [5, 0x20, 4, 0x49, 0xFF, 0x5F, 0x1B] 3)) =
        some ⟨54, .failed, .invalidRunLength, []⟩ ∧
      shown (step (inPhase .dynamicTables [5, 0xC0, 0x81, 0, 0, 0, 0, 0, 0x10, 0xFC, 0xFF, 3] 3)) =
        some ⟨91, .failed, .invalidCodeLengths, []⟩ := by decide +kernel

/-- BK1, BK2: the reserved type, whatever the final flag. -/
theorem test_reserved_type :
    shown (step (inPhase .awaitingHeader [0x07] 0)) = some ⟨3, .failed, .unsupportedBlockType, []⟩ ∧
      shown (step (inPhase .awaitingHeader [0x06] 0)) = some ⟨3, .failed, .unsupportedBlockType, []⟩ := by
  decide +kernel

/-- 43_codelength_rle.md R182. -/
theorem test_clN : shownLengths (exec (.clN 15) (running [] 0 [4])) = some ⟨0, .dynamicTables, .noError, [4, 15]⟩ := by decide +kernel

/-- RL1, RL2: CL16 with extra 1 repeats the last entry four times; with no entry it raises before its extra bits. -/
theorem test_cl16 :
    shownLengths (exec .cl16 (running [0x2C] 5 [7, 3])) = some ⟨7, .dynamicTables, .noError, [7, 3, 3, 3, 3, 3]⟩ ∧
      shownLengths (exec .cl16 (running [0x03] 3 [])) = some ⟨3, .failed, .invalidRunLength, []⟩ := by decide +kernel

/-- RL4: CL17 with extra 0. -/
theorem test_cl17 : shownLengths (exec .cl17 (running [0x3D, 0x36] 6 [4])) = some ⟨9, .dynamicTables, .noError, [4, 0, 0, 0]⟩ := by
  decide +kernel

/-- RL3: CL18 with extra 0. -/
theorem test_cl18 :
    shownLengths (exec .cl18 (running [0x02, 0x00] 2 [])) = some ⟨9, .dynamicTables, .noError, List.replicate 11 0⟩ := by decide +kernel

/-- RL7, RL3: a run is cut to its target. -/
theorem test_rle_truncates :
    shownLengths ((rle hb14Table 1 (running [0xFE, 0x01] 0 [])).toOutcome) = some ⟨9, .dynamicTables, .noError, [0]⟩ ∧
      shownLengths ((rle hb14Table 3 (running [0x02, 0x00] 0 [])).toOutcome) = some ⟨9, .dynamicTables, .noError, [0, 0, 0]⟩ := by
  decide +kernel

/-- IN1, IN2: literals 0 and 255 are ordinary. -/
theorem test_lit :
    shown (exec (.lit 0) (body [] 0 [])) = some ⟨0, .decoding, .noError, [0]⟩ ∧
      shown (exec (.lit 255) (body [] 0 [0x61])) = some ⟨0, .decoding, .noError, [0x61, 0xFF]⟩ := by decide +kernel

/-- The literal goes to the window's place `wp` too, and `wp` wraps (10_state.md R31). -/
theorem test_lit_window_wraps :
    ((answer (exec (.lit 7) { body [] 0 [] with outCount := 32767, wp := 32767 })).map fun t =>
      [t.wp, t.outCount, (Memory.read t.win 32767).toNat]) = some [0, 32768, 7] := by decide +kernel

/-- EOB after the final block and after another (44_block.md R202). -/
theorem test_eob :
    shown (exec .eob (body [0x03, 0x00] 10 [])) = some ⟨10, .done, .noError, []⟩ ∧
      shown (exec .eob { body [0x03, 0x00] 10 [] with bfinal := false }) =
        some ⟨10, .awaitingHeader, .noError, []⟩ := by decide +kernel

/-- P5, M3, M4, IN8 (E5b): matches with and without overlap, and one that reaches too far. -/
theorem test_match :
    shown (step (body [0x4B, 0x04, 0x03, 0x00] 11 [0x61])) =
        some ⟨23, .decoding, .noError, [0x61, 0x61, 0x61, 0x61, 0x61, 0x61]⟩ ∧
      shown (step (body [0x4B, 0x4C, 0x4A, 0x86, 0x22, 0x00] 27 [0x61, 0x62, 0x63])) =
        some ⟨39, .decoding, .noError, [0x61, 0x62, 0x63, 0x61, 0x62, 0x63, 0x61, 0x62, 0x63, 0x61]⟩ ∧
      shown (step (body [0x4B, 0x4C, 0x4A, 0x4E, 0x01, 0x62, 0x00] 35 [0x61, 0x62, 0x63, 0x64])) =
        some ⟨47, .decoding, .noError, [0x61, 0x62, 0x63, 0x64, 0x61, 0x62, 0x63]⟩ ∧
      shown (step (body [0x4B, 0x04, 0x42, 0x00] 11 [0x61])) =
        some ⟨23, .failed, .invalidBackReference, [0x61]⟩ := by decide +kernel

/-- 30_encoding.md R108: the ends of the length table and a row with extra bits; every element has the row of its number. -/
theorem test_length_table :
    [257, 265, 284, 285].map (fun n => (lengthBase n, lengthExtra n)) = [(3, 0), (11, 1), (227, 5), (258, 0)] := by decide +kernel

/-- 30_encoding.md R109: the ends of the distance table and the first row with extra bits. -/
theorem test_dist_table :
    [0, 4, 29].map (fun n => (distBase n, distExtra n)) = [(1, 0), (5, 1), (24577, 13)] := by
  decide +kernel

/-- A distance symbol with one extra bit of value 1: DIST4 is distance 6 (30_encoding.md R109). -/
theorem test_dist4 :
    shown (exec .dist4 ((body [0x01] 0 [1, 2, 3, 4, 5, 6]).setWork { Work.empty with len := 3 })) =
      some ⟨1, .decoding, .noError, [1, 2, 3, 4, 5, 6, 1, 2, 3]⟩ := by decide +kernel

/-- IN10: the largest distance, 24577 + 8191 = 32768, reaches the first of 32768 bytes. -/
theorem test_dist29 :
    ((answer (exec .dist29 { body [0xFF, 0x1F] 0 [0x41, 0x42, 0x43] with
        outCount := 32768, work := { Work.empty with len := 3 } })).map fun t =>
      [t.pos, t.work.dist] ++ (Memory.bytes t.out 32768 3).map BitVec.toNat) = some [13, 32768, 0x41, 0x42, 0x43] := by decide +kernel

/-- E6, E6b, E7, E7b. -/
theorem test_reserved_symbols :
    shown (step (body [0x1B, 0x03, 0x00] 3 [])) = some ⟨11, .failed, .invalidSymbol, []⟩ ∧
      shown (step (body [0x1B, 0x07, 0x00] 3 [])) = some ⟨11, .failed, .invalidSymbol, []⟩ ∧
      shown (step (body [0x4B, 0x04, 0x3E, 0x00] 11 [0x61])) = some ⟨23, .failed, .invalidSymbol, [0x61]⟩ ∧
      shown (step (body [0x4B, 0x04, 0x7E, 0x00] 11 [0x61])) = some ⟨23, .failed, .invalidSymbol, [0x61]⟩ := by
  decide +kernel

/-- The codes and fields of STATUS (10_state.md R38; 60_exceptions.md R262). -/
theorem test_status :
    (inPhase .decoding [] 0).status = 0x01 ∧ (inPhase .done [] 0).status = 0x02 ∧
      (State.reset.failedAt .invalidSymbol 0).status = 0x93 := by decide +kernel

/-! ## Witnesses: for each statement with hypotheses, what meets them together -/

/-- BR3: a read exactly to the end; BR5: a read of no bits there. -/
theorem test_witness_ReadBitsLsbFirst :
    (at_ [0xB5, 0x01] 10).pos + 6 ≤ 8 * (at_ [0xB5, 0x01] 10).inLen ∧
      (at_ [0xB5, 0x01] 16).pos + 0 ≤ 8 * (at_ [0xB5, 0x01] 16).inLen := by decide +kernel

/-- BR4, BR6. -/
theorem test_witness_ReadPastEndRaises :
    (7 ≠ 0 ∧ 8 * (at_ [0xB5, 0x01] 10).inLen < (at_ [0xB5, 0x01] 10).pos + 7) ∧
      (1 ≠ 0 ∧ 8 * (at_ [0xB5, 0x01] 16).inLen < (at_ [0xB5, 0x01] 16).pos + 1) ∧
      8 * (at_ [0xB5, 0x01] 16).inLen ≤ (at_ [0xB5, 0x01] 16).pos := by decide +kernel

/-- The last bit of a byte, and BR16. -/
theorem test_witness_PrefixBitShiftsInLow :
    (at_ [0x06] 7).pos + 1 ≤ 8 * (at_ [0x06] 7).inLen ∧ 8 * (at_ [0x00] 8).inLen < (at_ [0x00] 8).pos + 1 := by
  decide +kernel

/-- BR12, and all eight bits of the byte. -/
theorem test_witness_PrefixBitsAreMsbFirst :
    (at_ [0x06] 0).work.hval = 0 ∧ (at_ [0x06] 0).work.hcnt = 0 ∧ (at_ [0x06] 0).pos + 3 ≤ 8 * (at_ [0x06] 0).inLen ∧
      (at_ [0x06] 0).pos + 8 ≤ 8 * (at_ [0x06] 0).inLen := by decide +kernel

/-- BR7, BR10: the last two bytes, the last byte. -/
theorem test_witness_AlignedReadsAreLittleEndian :
    (at_ [0x34, 0x12] 0).pos % 8 = 0 ∧ (at_ [0x34, 0x12] 0).pos / 8 + 2 ≤ (at_ [0x34, 0x12] 0).inLen ∧
      (at_ [0x34, 0x12] 8).pos % 8 = 0 ∧ (at_ [0x34, 0x12] 8).pos / 8 + 1 ≤ (at_ [0x34, 0x12] 8).inLen := by
  decide +kernel

/-- BR14: an aligned cursor at the end of the input; BK9: a cursor in its last byte. -/
theorem test_witness_AlignByteRoundsUp :
    (at_ [0xB5, 0x01] 16).pos % 8 = 0 ∧ (at_ [0xB5, 0x01] 16).pos ≤ 8 * (at_ [0xB5, 0x01] 16).inLen ∧
      (at_ [0x01] 3).pos ≤ 8 * (at_ [0x01] 3).inLen := by decide +kernel

/-- HB1, symbol 7, the last of the longest codes. -/
theorem test_witness_BuildNumbersCanonically :
    build [3, 3, 3, 3, 3, 2, 4, 4] = some ((build [3, 3, 3, 3, 3, 2, 4, 4]).getD []) ∧
      ([3, 3, 3, 3, 3, 2, 4, 4] : List Nat)[7]? = some 4 := by decide +kernel

/-- HB3's key `(3, 7)`, and HB4's added key `(1, 1)`. -/
theorem test_witness_BuildAddsNoOtherKey :
    build [2, 1, 3, 3] = some ((build [2, 1, 3, 3]).getD []) ∧
      lookupCode ((build [2, 1, 3, 3]).getD []) 3 7 = some 3 ∧
      build [0, 1, 0] = some ((build [0, 1, 0]).getD []) ∧
      lookupCode ((build [0, 1, 0]).getD []) 1 1 = some 1 := by decide +kernel

/-- HB11 (refused) and HB1 (complete, Kraft sum exactly 1). -/
theorem test_witness_BuildRejectsExactlyOversubscribed :
    (∀ l ∈ ([1, 2, 2, 2] : List Nat), l ≤ 15) ∧ (build [1, 2, 2, 2] = none ∧ 2 ^ 15 < kraftSum [1, 2, 2, 2]) ∧
      (∀ l ∈ ([3, 3, 3, 3, 3, 2, 4, 4] : List Nat), l ≤ 15) ∧ kraftSum [3, 3, 3, 3, 3, 2, 4, 4] = 2 ^ 15 := by
  decide +kernel

theorem test_witness_BuiltTablesArePrefixFree : build [1, 15, 15] = some ((build [1, 15, 15]).getD []) := by decide +kernel

/-- HB4. -/
theorem test_witness_SingleSymbolFromEitherBit :
    ([0, 1, 0] : List Nat)[1]? = some 1 ∧ ∀ s' l, ([0, 1, 0] : List Nat)[s']? = some l → s' ≠ 1 → l = 0 := by
  refine ⟨rfl, fun s' l h hne => ?_⟩
  match s', hne with
  | 0, _ => simpa using h.symm
  | 1, hne => exact absurd rfl hne
  | 2, _ => simpa using h.symm
  | n + 3, _ => simp at h

/-- A symbol of each of the four ranges of R160 at both its ends, and the last distance symbol. -/
theorem test_witness_FixedTableCodes :
    ([0, 143, 144, 255, 256, 279, 280, 287] : List Nat).all (· < 288) = true ∧ 31 < 32 := by decide

/-- HD1's first symbol: 4 bits, no shorter prefix a key. -/
theorem test_witness_DecodeSymReturnsFirstMatch :
    1 ≤ 4 ∧ (at_ [0x87, 0x00] 0).pos + 4 ≤ 8 * (at_ [0x87, 0x00] 0).inLen ∧
      lookupCode ((build [3, 3, 3, 3, 3, 2, 4, 4]).getD []) 4 (bitsMsb (at_ [0x87, 0x00] 0).inMem 0 4) = some 6 ∧
      ∀ j, 1 ≤ j → j < 4 →
        lookupCode ((build [3, 3, 3, 3, 3, 2, 4, 4]).getD []) j (bitsMsb (at_ [0x87, 0x00] 0).inMem 0 j) = none := by
  refine ⟨by decide, by decide, by decide +kernel, fun j h1 h2 => ?_⟩
  match j, h1, h2 with
  | 1, _, _ => decide +kernel
  | 2, _, _ => decide +kernel
  | 3, _, _ => decide +kernel

/-- HD6: the empty table on one byte. -/
theorem test_witness_DecodeSymDrainsUnmatched :
    (at_ [0x00] 0).pos ≤ 8 * (at_ [0x00] 0).inLen ∧
      ∀ j, 1 ≤ j → (at_ [0x00] 0).pos + j ≤ 8 * (at_ [0x00] 0).inLen →
        lookupCode [] j (bitsMsb (at_ [0x00] 0).inMem (at_ [0x00] 0).pos j) = none :=
  ⟨by decide, fun _ _ _ => rfl⟩

/-- CL17 by HB14, written at bit 3 of an input that ends with it. -/
theorem test_witness_DecodeEncodeAgree :
    Instr.wellFormed .cl17 = true ∧ build hb14 = some hb14Table ∧ encode hb14Table .cl17 = some [1, 1, 1] ∧
      Spells (Memory.ofBytes [0x38]) 3 [1, 1, 1] ∧ 3 + [1, 1, 1].length ≤ 6 := by
  refine ⟨by decide, by decide +kernel, by decide +kernel, ?_, by decide⟩
  simp only [Spells, and_true]
  decide +kernel

/-- The last number of each format and the first beyond it. -/
theorem test_witness_NumberNamesOneElement :
    Format.llsym ≠ .raw ∧ decodeNumber .llsym 287 = some .llrsv287 ∧ decodeNumber .dsym 31 = some .drsv31 ∧
      decodeNumber .clsym 18 = some .cl18 ∧ decodeNumber .blkhdr 7 = some (.blockReserved true) ∧
      decodeNumber .llsym 288 = none ∧ decodeNumber .dsym 32 = none ∧ decodeNumber .clsym 19 = none ∧
      decodeNumber .blkhdr 8 = none := by decide +kernel

theorem test_witness_CodeLengthAppends : 0 ≤ 15 ∧ 15 ≤ 15 := by decide

/-- RL1 (two bits left), RL2, and an extra field cut off. -/
theorem test_witness_RepeatPrecedingLength :
    ((running [0x2C] 6 [7, 3]).work.arr = [7] ++ [3] ∧
        (running [0x2C] 6 [7, 3]).pos + 2 ≤ 8 * (running [0x2C] 6 [7, 3]).inLen) ∧
      (running [0x03] 3 []).work.arr = [] ∧
      ((running [0x2C] 7 [3]).work.arr ≠ [] ∧ 8 * (running [0x2C] 7 [3]).inLen < (running [0x2C] 7 [3]).pos + 2) := by
  decide +kernel

/-- Exactly the extra bits left, and one bit short, for each of the two. -/
theorem test_witness_RepeatZeroLengths :
    (running [0] 5 []).pos + 3 ≤ 8 * (running [0] 5 []).inLen ∧
      8 * (running [0] 6 []).inLen < (running [0] 6 []).pos + 3 ∧
      (running [0] 1 []).pos + 7 ≤ 8 * (running [0] 1 []).inLen ∧
      8 * (running [0] 2 []).inLen < (running [0] 2 []).pos + 7 := by decide +kernel

/-- RL7 (a run that gives its lengths), RL2 (symbol 16 first), and a run of which no code is left. -/
theorem test_witness_RunExpandsAsDescribed :
    Table.fits hb14Table 19 = true ∧
      expandRun hb14Table 1 (at_ [0xFE, 0x01] 0).inMem (8 * (at_ [0xFE, 0x01] 0).inLen) 1 [] 0 = .ok ([0], 9) ∧
      expandRun hb14Table 4 (at_ [0x03] 0).inMem (8 * (at_ [0x03] 0).inLen) 4 [] 0 = .error (.invalidRunLength, 3) ∧
      expandRun hb14Table 4 (at_ [] 0).inMem (8 * (at_ [] 0).inLen) 4 [] 0 = .error (.unexpectedEndOfStream, 0) :=
  ⟨by decide +kernel, ok_of (by decide +kernel), error_of (by decide +kernel), error_of (by decide +kernel)⟩

/-- RL1's first element: the length 3. -/
theorem test_witness_CodeLengthLoopRunsElement :
    ∃ t u, (running [0x2C] 0 []).phase ≠ .failed ∧ (running [0x2C] 0 []).work.arr.length < 5 ∧
      decodeSym hb14Table (running [0x2C] 0 []) = .ok 3 t ∧ decodeNumber .clsym 3 = some (.clN 3) ∧
      exec (.clN 3) t = .next u := by
  have h : decodeSymAt hb14Table (running [0x2C] 0 []).inMem (8 * (running [0x2C] 0 []).inLen)
      (running [0x2C] 0 []).pos = .ok (3, ⟨2, 0, 2⟩) := by rfl
  exact ⟨_, _, by decide, by decide, decodeSym_of_ok h, rfl, rfl⟩

/-- No bit left (E13), two bits left, and three (the whole byte of BK1 read but its last three bits). -/
theorem test_witness_HeaderStep :
    (inPhase .awaitingHeader [] 0).quiet ∧ (inPhase .awaitingHeader [] 0).phase = .awaitingHeader ∧
      8 * (inPhase .awaitingHeader [] 0).inLen < (inPhase .awaitingHeader [] 0).pos + 1 ∧
      (inPhase .awaitingHeader [7] 6).quiet ∧
      (inPhase .awaitingHeader [7] 6).pos + 1 ≤ 8 * (inPhase .awaitingHeader [7] 6).inLen ∧
      8 * (inPhase .awaitingHeader [7] 6).inLen < (inPhase .awaitingHeader [7] 6).pos + 3 ∧
      (inPhase .awaitingHeader [7] 5).quiet ∧
      (inPhase .awaitingHeader [7] 5).pos + 3 ≤ 8 * (inPhase .awaitingHeader [7] 5).inLen := by decide +kernel

theorem test_witness_HeaderElementsLatch :
    (inPhase .awaitingHeader [] 0).phase ≠ .stored ∧ (inPhase .awaitingHeader [] 0).phase ≠ .fixedTables ∧
      (inPhase .awaitingHeader [] 0).phase ≠ .dynamicTables := by decide +kernel

/-- BK9, E3b, and BK3 with exactly the two fields left. -/
theorem test_witness_StoredHeaderStep :
    ((inPhase .stored [1] 3).phase = .stored ∧
        8 * (inPhase .stored [1] 3).inLen < alignUp (inPhase .stored [1] 3).pos + 16) ∧
      (alignUp (inPhase .stored [1, 5, 0, 0xFA] 3).pos + 16 ≤ 8 * (inPhase .stored [1, 5, 0, 0xFA] 3).inLen ∧
        8 * (inPhase .stored [1, 5, 0, 0xFA] 3).inLen < alignUp (inPhase .stored [1, 5, 0, 0xFA] 3).pos + 32) ∧
      alignUp (inPhase .stored [1, 0, 0, 0xFF, 0xFF] 3).pos + 32 ≤
        8 * (inPhase .stored [1, 0, 0, 0xFF, 0xFF] 3).inLen := by decide +kernel

/-- The end of a body, its last byte, and a byte cut off (E3). -/
theorem test_witness_RawByteOrBodyEnd :
    ((at_ [0x5A] 8).memoryOk ∧ (at_ [0x5A] 8).rawRem = 0) ∧
      ({ at_ [0x5A] 0 with rawRem := 1 }.memoryOk ∧ { at_ [0x5A] 0 with rawRem := 1 }.rawRem ≠ 0 ∧
        { at_ [0x5A] 0 with rawRem := 1 }.pos % 8 = 0 ∧
        { at_ [0x5A] 0 with rawRem := 1 }.pos + 8 ≤ 8 * { at_ [0x5A] 0 with rawRem := 1 }.inLen) ∧
      8 * { at_ [0x5A] 8 with rawRem := 3 }.inLen < { at_ [0x5A] 8 with rawRem := 3 }.pos + 8 := by decide +kernel

theorem test_witness_FixedSetupStep : (inPhase .fixedTables [3, 0] 3).phase = .fixedTables := by decide +kernel

/-- The lengths that P3's two runs give. -/
def p3Lengths : List Nat :=
  List.replicate 97 0 ++ [1, 4, 4, 4, 4] ++ List.replicate 154 0 ++ [3, 0, 0, 0, 3]

/-- P3: 4, 0, 14, the meta array of HB14, the two runs with their cursors. -/
theorem test_witness_DynamicSetupCompletes :
    (inPhase .dynamicTables p3 3).phase = .dynamicTables ∧
      bitsLsb (inPhase .dynamicTables p3 3).inMem 3 5 = 4 ∧ bitsLsb (inPhase .dynamicTables p3 3).inMem 8 5 = 0 ∧
      bitsLsb (inPhase .dynamicTables p3 3).inMem 13 4 = 14 ∧
      3 + 14 + 3 * (14 + 4) ≤ 8 * (inPhase .dynamicTables p3 3).inLen ∧
      build (metaLengthsAt (inPhase .dynamicTables p3 3).inMem (3 + 14) (14 + 4)) = some hb14Table ∧
      expandRun hb14Table (4 + 257) (inPhase .dynamicTables p3 3).inMem (8 * (inPhase .dynamicTables p3 3).inLen)
        (4 + 257) [] (3 + 14 + 3 * (14 + 4)) = .ok (p3Lengths, 119) ∧
      expandRun hb14Table (0 + 1) (inPhase .dynamicTables p3 3).inMem (8 * (inPhase .dynamicTables p3 3).inLen)
        (0 + 1) [] 119 = .ok ([1], 122) ∧
      (build p3Lengths).isSome = true ∧ (build [1]).isSome = true :=
  ⟨by decide +kernel, by decide +kernel, by decide +kernel, by decide +kernel, by decide +kernel, by decide +kernel,
    ok_of (by decide +kernel), ok_of (by decide +kernel), by decide +kernel, by decide +kernel⟩

/-- E8: three meta lengths 1. -/
theorem test_witness_DynamicSetupRejects_meta :
    (inPhase .dynamicTables [5, 0xC0, 1, 4, 0, 0, 0, 0x40, 0x10] 3).phase = .dynamicTables ∧
      bitsLsb (inPhase .dynamicTables [5, 0xC0, 1, 4, 0, 0, 0, 0x40, 0x10] 3).inMem 13 4 = 14 ∧
      3 + 14 + 3 * (14 + 4) ≤ 8 * (inPhase .dynamicTables [5, 0xC0, 1, 4, 0, 0, 0, 0x40, 0x10] 3).inLen ∧
      build (metaLengthsAt (inPhase .dynamicTables [5, 0xC0, 1, 4, 0, 0, 0, 0x40, 0x10] 3).inMem (3 + 14) (14 + 4)) =
        none := by decide +kernel

/-- E11's stream. -/
def e11 : List Nat := [5, 0xC0, 0x81, 0, 0, 0, 0, 0, 0x10, 0xFC, 0xFF, 3]

/-- E10's stream. -/
def e10 : List Nat := [5, 0x20, 4, 0x49, 0xFF, 0x5F, 0x1B]

/-- E10's meta table: 0 is 00, 8 is 01, 16 is 10, 18 is 11. -/
def e10Meta : Table := [⟨2, 0, 0⟩, ⟨2, 1, 8⟩, ⟨2, 2, 16⟩, ⟨2, 3, 18⟩]

/-- E11: three literal/length lengths 1. -/
theorem test_witness_DynamicSetupRejects_runs :
    bitsLsb (inPhase .dynamicTables e11 3).inMem 3 5 = 0 ∧ bitsLsb (inPhase .dynamicTables e11 3).inMem 8 5 = 0 ∧
      bitsLsb (inPhase .dynamicTables e11 3).inMem 13 4 = 14 ∧
      build (metaLengthsAt (inPhase .dynamicTables e11 3).inMem (3 + 14) (14 + 4)) =
        some [⟨1, 0, 1⟩, ⟨1, 1, 18⟩] ∧
      expandRun [⟨1, 0, 1⟩, ⟨1, 1, 18⟩] (0 + 257) (inPhase .dynamicTables e11 3).inMem
        (8 * (inPhase .dynamicTables e11 3).inLen) (0 + 257) [] (3 + 14 + 3 * (14 + 4)) =
        .ok ([1, 1, 1] ++ List.replicate 254 0, 90) ∧
      expandRun [⟨1, 0, 1⟩, ⟨1, 1, 18⟩] (0 + 1) (inPhase .dynamicTables e11 3).inMem
        (8 * (inPhase .dynamicTables e11 3).inLen) (0 + 1) [] 90 = .ok ([1], 91) ∧
      build ([1, 1, 1] ++ List.replicate 254 0) = none :=
  ⟨by decide +kernel, by decide +kernel, by decide +kernel, by decide +kernel, ok_of (by decide +kernel),
    ok_of (by decide +kernel), by decide +kernel⟩

/-- A dynamic header whose 18th meta length is cut off: HCLEN 14 at bits 15 to 18, 72 bits of input. -/
def cutHeader : State := inPhase .dynamicTables [0, 0, 7, 0, 0, 0, 0, 0, 0] 5

/-- Each field of a dynamic header cut off one bit short or whole: HLIT, HDIST, HCLEN, the last of 18 meta lengths. -/
theorem test_witness_DynamicSetupRejects_cut :
    8 * (inPhase .dynamicTables [0] 4).inLen < 4 + 5 ∧
      (3 + 5 ≤ 8 * (inPhase .dynamicTables [0] 3).inLen ∧ 8 * (inPhase .dynamicTables [0] 3).inLen < 3 + 5 + 5) ∧
      (3 + 10 ≤ 8 * (inPhase .dynamicTables [0, 0] 3).inLen ∧
        8 * (inPhase .dynamicTables [0, 0] 3).inLen < 3 + 10 + 4) ∧
      (cutHeader.phase = .dynamicTables ∧ bitsLsb cutHeader.inMem (5 + 10) 4 + 4 = 18 ∧ 17 < 18 ∧
        5 + 14 + 3 * 17 ≤ 8 * cutHeader.inLen ∧ 8 * cutHeader.inLen < 5 + 14 + 3 * 17 + 3) := by decide +kernel

/-- A dynamic header's first step fails at the first bit of the meta length that is cut off (60_exceptions.md R262). -/
theorem test_dynamic_cut : shown (step cutHeader) = some ⟨70, .failed, .unexpectedEndOfStream, []⟩ := by decide +kernel

/-- E9: the first run begins with symbol 16. E10: the second one does. -/
theorem test_witness_DynamicSetupRejects_run_errors :
    (bitsLsb (inPhase .dynamicTables [5, 0, 2, 0x24] 3).inMem 13 4 + 4 = 4 ∧
        3 + 14 + 3 * 4 ≤ 8 * (inPhase .dynamicTables [5, 0, 2, 0x24] 3).inLen ∧
        build (metaLengthsAt (inPhase .dynamicTables [5, 0, 2, 0x24] 3).inMem (3 + 14) 4) =
          some ((build (metaLengthsAt (inPhase .dynamicTables [5, 0, 2, 0x24] 3).inMem (3 + 14) 4)).getD []) ∧
        expandRun ((build (metaLengthsAt (inPhase .dynamicTables [5, 0, 2, 0x24] 3).inMem (3 + 14) 4)).getD [])
          (bitsLsb (inPhase .dynamicTables [5, 0, 2, 0x24] 3).inMem 3 5 + 257)
          (inPhase .dynamicTables [5, 0, 2, 0x24] 3).inMem 32
          (bitsLsb (inPhase .dynamicTables [5, 0, 2, 0x24] 3).inMem 3 5 + 257) [] (3 + 14 + 3 * 4) =
          .error (.invalidRunLength, 30)) ∧
      (bitsLsb (inPhase .dynamicTables e10 3).inMem 3 5 = 0 ∧ bitsLsb (inPhase .dynamicTables e10 3).inMem 8 5 = 0 ∧
        bitsLsb (inPhase .dynamicTables e10 3).inMem 13 4 + 4 = 5 ∧
        3 + 14 + 3 * 5 ≤ 8 * (inPhase .dynamicTables e10 3).inLen ∧
        build (metaLengthsAt (inPhase .dynamicTables e10 3).inMem (3 + 14) 5) = some e10Meta ∧
        expandRun e10Meta (0 + 257) (inPhase .dynamicTables e10 3).inMem 56 (0 + 257) [] (3 + 14 + 3 * 5) =
          .ok (List.replicate 256 0 ++ [8], 52) ∧
        expandRun e10Meta (0 + 1) (inPhase .dynamicTables e10 3).inMem 56 (0 + 1) [] 52 =
          .error (.invalidRunLength, 54)) :=
  ⟨⟨by decide +kernel, by decide +kernel, by decide +kernel, error_of (by decide +kernel)⟩,
    ⟨by decide +kernel, by decide +kernel, by decide +kernel, by decide +kernel, by decide +kernel,
      ok_of (by decide +kernel), error_of (by decide +kernel)⟩⟩

theorem test_witness_EndOfBlockElement :
    (body [3, 0] 10 []).bfinal = true ∧ { body [3, 0] 10 [] with bfinal := false }.bfinal = false := by decide +kernel

theorem test_witness_LiteralAppends : (body [3, 0] 3 [0x61]).memoryOk := by decide +kernel

/-- P5 after the code of its length symbol. -/
def p5Match : State := body [0x4B, 0x04, 0x03, 0x00] 18 [0x61]

/-- P5's match: symbol 259 at bits 11..17 read, distance symbol 0 at 18..22; distance 1 of 1 byte. -/
theorem test_witness_MatchCompletes :
    257 ≤ 259 ∧ 259 ≤ 285 ∧ decodeNumber .llsym 259 = some .len259 ∧ p5Match.memoryOk ∧
      p5Match.pos + lengthExtra 259 ≤ 8 * p5Match.inLen ∧
      decodeSymAt p5Match.dt p5Match.inMem (8 * p5Match.inLen) (p5Match.pos + lengthExtra 259) = .ok (0, ⟨23, 0, 5⟩) ∧
      0 < 30 ∧ 23 + distExtra 0 ≤ 8 * p5Match.inLen ∧
      distBase 0 + bitsLsb p5Match.inMem 23 (distExtra 0) ≤ p5Match.outCount :=
  ⟨by decide, by decide, rfl, by decide +kernel, by decide +kernel, ok_of (by decide +kernel), by decide,
    by decide +kernel, by decide +kernel⟩

/-- The length's extra bits cut off; its distance code cut off; DSYM 30 (E7); the distance's extra bits cut off; a distance
one too far (E5b). -/
theorem test_witness_MatchErrorsInOrder :
    (lengthExtra 284 ≠ 0 ∧ 8 * (body [0] 8 []).inLen < (body [0] 8 []).pos + lengthExtra 284) ∧
      (lengthExtra 257 = 0 ∧
        decodeSymAt fixedDist (body [0x4B, 0x04, 0x42] 20 []).inMem 24 (20 + lengthExtra 257) = .error ⟨24, 2, 4⟩) ∧
      decodeSymAt fixedDist (body [0x4B, 0x04, 0x3E, 0x00] 18 []).inMem 32 (18 + lengthExtra 257) =
        .ok (30, ⟨23, 30, 5⟩) ∧
      (decodeSymAt fixedDist (body [0x17] 0 []).inMem 8 (0 + lengthExtra 257) = .ok (29, ⟨5, 29, 5⟩) ∧
        8 * (body [0x17] 0 []).inLen < 5 + distExtra 29) ∧
      (decodeSymAt fixedDist (body [0x4B, 0x04, 0x42, 0x00] 18 [0x61]).inMem 32 (18 + lengthExtra 257) =
          .ok (1, ⟨23, 1, 5⟩) ∧
        (body [0x4B, 0x04, 0x42, 0x00] 18 [0x61]).outCount <
          distBase 1 + bitsLsb (body [0x4B, 0x04, 0x42, 0x00] 18 [0x61]).inMem 23 (distExtra 1)) :=
  ⟨by decide +kernel, ⟨by decide +kernel, error_of (by decide +kernel)⟩, ok_of (by decide +kernel),
    ⟨ok_of (by decide +kernel), by decide +kernel⟩, ok_of (by decide +kernel), by decide +kernel⟩

/-- DIST4's extra bit cut off; its distance 6 with 5 bytes, and with 6. -/
theorem test_witness_DistanceElementCopies :
    4 < 30 ∧ decodeNumber .dsym 4 = some .dist4 ∧
      ((body [1] 8 [1]).memoryOk ∧ distExtra 4 ≠ 0 ∧
        8 * (body [1] 8 [1]).inLen < (body [1] 8 [1]).pos + distExtra 4) ∧ distExtra 3 = 0 ∧
      ((body [1] 0 [1, 2, 3, 4, 5]).memoryOk ∧
        (body [1] 0 [1, 2, 3, 4, 5]).pos + distExtra 4 ≤ 8 * (body [1] 0 [1, 2, 3, 4, 5]).inLen ∧
        (body [1] 0 [1, 2, 3, 4, 5]).outCount <
          distBase 4 + bitsLsb (body [1] 0 [1, 2, 3, 4, 5]).inMem 0 (distExtra 4)) ∧
      ((body [1] 0 [1, 2, 3, 4, 5, 6]).memoryOk ∧
        distBase 4 + bitsLsb (body [1] 0 [1, 2, 3, 4, 5, 6]).inMem 0 (distExtra 4) ≤
          (body [1] 0 [1, 2, 3, 4, 5, 6]).outCount) := by decide +kernel

/-- IN4: distance 3, all of the output. -/
theorem test_witness_CopyRepeatsLastBytes :
    (body [] 0 [0x61, 0x62, 0x63]).memoryOk ∧ 1 ≤ 3 ∧ 3 ≤ (body [] 0 [0x61, 0x62, 0x63]).outCount := by
  decide +kernel

/-- P5's match again, with the element of its distance symbol. -/
theorem test_witness_MatchRunsDistanceElement :
    257 ≤ 259 ∧ 259 ≤ 285 ∧ decodeNumber .llsym 259 = some .len259 ∧
      p5Match.pos + lengthExtra 259 ≤ 8 * p5Match.inLen ∧
      decodeSymAt p5Match.dt p5Match.inMem (8 * p5Match.inLen) (p5Match.pos + lengthExtra 259) = .ok (0, ⟨23, 0, 5⟩) ∧
      decodeNumber .dsym 0 = some .dist0 :=
  ⟨by decide, by decide, rfl, by decide +kernel, ok_of (by decide +kernel), rfl⟩

theorem test_witness_ReservedSymbolsRaise :
    Instr.drsv31 = .llrsv286 ∨ Instr.drsv31 = .llrsv287 ∨ Instr.drsv31 = .drsv30 ∨ Instr.drsv31 = .drsv31 := by decide

/-- The largest extra values: 31 for symbol 284, 8191 for distance symbol 29. -/
theorem test_witness_OperandRanges :
    (257 ≤ 284 ∧ 284 ≤ 285 ∧ 31 < 2 ^ lengthExtra 284) ∧ (29 < 30 ∧ 8191 < 2 ^ distExtra 29) := by decide +kernel

theorem test_witness_TerminalPhasesHaveNoStep :
    State.reset.quiet ∧ State.reset.phase = .idle ∧ (inPhase .done [] 0).quiet ∧ (inPhase .done [] 0).phase = .done ∧
      (inPhase .failed [] 0).quiet ∧ (inPhase .failed [] 0).phase = .failed := by decide +kernel

/-- A quiet state with canonical memories and a next state: P5's match. Meets the hypotheses of PhaseOrder,
CursorNeverBackward, OutputOnlyGrows, LaunchParametersKept, ErrorsAreRecorded, DoneOnlyAfterFinalBlock,
StepLowersProgress and StepKeepsMemoryCanonical. -/
theorem test_witness_steps :
    ∃ s t : State, s.quiet ∧ s.memoryOk ∧ s.busy = true ∧ step s = .next t := by
  obtain ⟨t, h⟩ := next_of (o := step (body [0x4B, 0x04, 0x03, 0x00] 11 [0x61])) (by decide +kernel)
  exact ⟨_, t, by decide +kernel, by decide +kernel, by decide +kernel, h⟩

/-- The same with a next state in Failed (ErrorsAreRecorded) and one in Done (DoneOnlyAfterFinalBlock). -/
theorem test_witness_steps_that_end :
    ((answer (step (body [0x1B, 0x03, 0x00] 3 []))).map State.phase = some .failed ∧
        (body [0x1B, 0x03, 0x00] 3 []).quiet) ∧
      ((answer (step (body [0x03, 0x00] 3 []))).map State.phase = some .done ∧ (body [0x03, 0x00] 3 []).quiet) := by
  decide +kernel

/-- A window that agrees with an output of one byte. -/
theorem test_witness_StepKeepsWindowView :
    ∃ t, (body [0x4B, 0x04, 0x03, 0x00] 11 [0x61]).memoryOk ∧
      (body [0x4B, 0x04, 0x03, 0x00] 11 [0x61]).windowAgrees ∧
      step (body [0x4B, 0x04, 0x03, 0x00] 11 [0x61]) = .next t := by
  obtain ⟨t, h⟩ := next_of (o := step (body [0x4B, 0x04, 0x03, 0x00] 11 [0x61])) (by decide +kernel)
  refine ⟨t, by decide +kernel, ⟨by decide +kernel, fun d h1 h2 _ => ?_⟩, h⟩
  have h3 : (body [0x4B, 0x04, 0x03, 0x00] 11 [0x61]).outCount = 1 := by decide +kernel
  have : d = 1 := by omega
  subst this
  decide +kernel

/-- A consistent state whose tables are the fixed ones. -/
theorem test_body_consistent : (body [0x03, 0x00] 3 []).Consistent where
  stored := by decide
  fixed := by decide
  dynamic := by decide
  body := by decide
  aligned := by decide
  rawRem := by decide
  err := by decide
  inside := by decide
  bounded := by decide

theorem test_body_tablesOk : (body [0x03, 0x00] 3 []).tablesOk := by decide +kernel

theorem test_witness_StepKeepsConsistency :
    ∃ t, (body [0x03, 0x00] 3 []).Consistent ∧ (body [0x03, 0x00] 3 []).tablesOk ∧
      step (body [0x03, 0x00] 3 []) = .next t := by
  obtain ⟨t, h⟩ := next_of (o := step (body [0x03, 0x00] 3 [])) (by decide +kernel)
  exact ⟨t, test_body_consistent, test_body_tablesOk, h⟩

theorem test_witness_EveryRunEnds :
    (body [0x03, 0x00] 3 []).quiet ∧ (body [0x03, 0x00] 3 []).busy = true ∧ (body [0x03, 0x00] 3 []).Consistent ∧
      (body [0x03, 0x00] 3 []).tablesOk :=
  ⟨by decide +kernel, by decide +kernel, test_body_consistent, test_body_tablesOk⟩

/-- Reset in a run, start outside one, start in one. -/
theorem test_witness_HostCommands :
    ({ inPhase .decoding [] 0 with ctrlGo := true, ctrlRst := true }.ctrlRst = true) ∧
      ({ at_ [3, 0] 0 with ctrlGo := true }.ctrlRst = false ∧ { at_ [3, 0] 0 with ctrlGo := true }.ctrlGo = true ∧
        { at_ [3, 0] 0 with ctrlGo := true }.busy = false) ∧
      ({ inPhase .decoding [] 0 with ctrlGo := true }.ctrlRst = false ∧
        { inPhase .decoding [] 0 with ctrlGo := true }.ctrlGo = true ∧
        { inPhase .decoding [] 0 with ctrlGo := true }.busy = true) := by decide +kernel

/-- E14, and the boundary `START = IN_LEN`. -/
theorem test_witness_LaunchBeyondInputFails :
    { at_ [3, 0] 0 with start := 5 }.inLen ≤ { at_ [3, 0] 0 with start := 5 }.start ∧
      { at_ [3, 0] 0 with start := 2 }.inLen ≤ { at_ [3, 0] 0 with start := 2 }.start := by decide +kernel

theorem test_witness_HostAccess :
    (inPhase .decoding [] 0).busy = true ∧ { at_ [] 0 with ctrlGo := true }.ctrlGo = true ∧
      (inPhase .idle [] 0).busy = false ∧ (inPhase .idle [] 0).ctrlGo = false ∧ (inPhase .failed [] 0).phase = .failed ∧
      (inPhase .done [] 0).phase = .done ∧ (bytes [7, 8])[1]? = some 8 := by decide +kernel

/-- The host's launch, its start, the command's step, and the first header: P2's run begins (70_reset_and_hazards.md R305;
log 11). -/
theorem test_launch :
    (((State.hostLaunch State.reset (bytes [0xCB, 0x48]) 0).bind fun s => answer (step (s.hostWriteCtrl 1))).bind fun s =>
      answer (step s)).map (fun s => (s.pos, s.phase, s.bfinal)) = some (3, .fixedTables, true) := by decide +kernel

/-- 10_state.md R38: IN_LEN and START are written and read each alone; from a start command on they are closed (R75; log 6). -/
theorem test_host_registers :
    ((State.hostWriteInLen State.reset 4).map fun s => (s.hostReadInLen, s.hostReadStart)) = some (some 4, some 0) ∧
      ((State.hostWriteStart State.reset 9).map fun s => (s.hostReadInLen, s.hostReadStart)) = some (some 0, some 9) ∧
      (State.reset.hostWriteCtrl 1).hostWriteStart 9 = none ∧ (State.reset.hostWriteCtrl 1).hostReadInLen = none := by
  decide +kernel

/-- A header, a literal of a fixed block, raw-copy mode and the three setup phases. -/
theorem test_witness_StepRunsDecodedInstruction :
    ((inPhase .awaitingHeader [3, 0] 0).quiet ∧
        decode .blkhdr [] (inPhase .awaitingHeader [3, 0] 0).inMem (8 * 2) 0 = .ok (.blockFixed true, 3)) ∧
      ((body [0xCB, 0x48] 3 []).quiet ∧ (body [0xCB, 0x48] 3 []).phase = .decoding ∧
        (body [0xCB, 0x48] 3 []).btype = 1 ∧
        decode .llsym (body [0xCB, 0x48] 3 []).lt (body [0xCB, 0x48] 3 []).inMem (8 * 2) 3 = .ok (.lit 0x68, 11)) ∧
      ((inPhase .decoding [] 0).quiet ∧ (inPhase .decoding [] 0).btype = 0) ∧
      (inPhase .stored [] 0).quiet ∧ (inPhase .fixedTables [] 0).quiet ∧ (inPhase .dynamicTables [] 0).quiet :=
  ⟨⟨by decide +kernel, ok_of (by decide +kernel)⟩,
    ⟨by decide +kernel, by decide +kernel, by decide +kernel, ok_of (by decide +kernel)⟩, by decide +kernel,
    by decide +kernel, by decide +kernel, by decide +kernel⟩

end Sys2Proof.Tests
end

section
/-! PROOFS. The bit reader's two assembly directions (20_memory.md R63, R64): which input bit stands at which place of the
value, and what a read and a run of prefix bits leave. -/

namespace Sys2Proof

/-- `bitsLsb` puts the bit read `i`-th at place `i` (20_memory.md R63). -/
theorem bitsLsb_bit (m : Memory) (p : Nat) {n i : Nat} (h : i < n) :
    bitsLsb m p n / 2 ^ i % 2 = inBit m (p + i) := by
  induction n with
  | zero => omega
  | succ n ih =>
    rw [bitsLsb]
    obtain hi | rfl := Nat.lt_succ_iff_lt_or_eq.mp h
    · -- a lower place: the new summand is an even multiple of `2 ^ i`
      obtain ⟨d, rfl⟩ := Nat.exists_eq_add_of_lt hi
      have hpow : inBit m (p + (i + d + 1)) * 2 ^ (i + d + 1) =
          2 ^ i * (2 * (inBit m (p + (i + d + 1)) * 2 ^ d)) := by
        simp only [Nat.pow_add, Nat.pow_one, Nat.mul_assoc, Nat.mul_comm, Nat.mul_left_comm]
      rw [hpow, Nat.add_mul_div_left _ _ (Nat.two_pow_pos i), Nat.add_mul_mod_self_left, ih hi]
    · -- the new place: the bits read before lie below it
      rw [Nat.add_mul_div_right _ _ (Nat.two_pow_pos i), Nat.div_eq_of_lt (bitsLsb_lt m p i), Nat.zero_add,
        Nat.mod_eq_of_lt (inBit_lt_two m (p + i))]

/-- `bitsMsb` puts the bit read `i`-th of `n` at place `n - 1 - i` (20_memory.md R64). -/
theorem bitsMsb_bit (m : Memory) (p : Nat) {n i : Nat} (h : i < n) :
    bitsMsb m p n / 2 ^ (n - 1 - i) % 2 = inBit m (p + i) := by
  induction n with
  | zero => omega
  | succ n ih =>
    have hb := inBit_lt_two m (p + n)
    rw [bitsMsb]
    obtain hi | rfl := Nat.lt_succ_iff_lt_or_eq.mp h
    · -- an earlier bit has moved up by one place
      have hplace : n + 1 - 1 - i = n - 1 - i + 1 := by omega
      have hhalf : (bitsMsb m p n * 2 + inBit m (p + n)) / 2 = bitsMsb m p n := by omega
      rw [hplace, Nat.pow_succ', ← Nat.div_div_eq_div_mul, hhalf, ih hi]
    · -- the new bit stands lowest
      have hplace : i + 1 - 1 - i = 0 := by omega
      rw [hplace, Nat.pow_zero, Nat.div_one]
      omega

namespace Machine

/-- A prefix bit that is there is shifted into the low position of `hval` (40_bitreader.md R133). -/
theorem readHuffmanPrefixBit_of_le {s : State} (h : s.pos + 1 ≤ 8 * s.inLen) :
    readHuffmanPrefixBit s =
      .ok () (s.setReader ⟨s.pos + 1, s.work.hval * 2 + inBit s.inMem s.pos, s.work.hcnt + 1⟩) := by
  unfold readHuffmanPrefixBit
  rw [prefixBit_eq_some.mpr ⟨h, rfl⟩]

/-- `k` prefix bits that are all there go below the `hval` of before, the earliest highest, and count on from its `hcnt`. -/
theorem prefixBits_of_le {k : Nat} {s : State} (h : s.pos + k ≤ 8 * s.inLen) :
    prefixBits k s = .ok () (s.setReader
      ⟨s.pos + k, s.work.hval * 2 ^ k + bitsMsb s.inMem s.pos k, s.work.hcnt + k⟩) := by
  induction k with
  | zero => simp [prefixBits, bitsMsb, State.setReader]
  | succ k ih =>
    have hval : (s.work.hval * 2 ^ k + bitsMsb s.inMem s.pos k) * 2 + inBit s.inMem (s.pos + k) =
        s.work.hval * 2 ^ (k + 1) + bitsMsb s.inMem s.pos (k + 1) := by
      rw [bitsMsb, Nat.pow_succ, ← Nat.mul_assoc, Nat.add_mul, Nat.add_assoc]
    rw [prefixBits, ih (by omega), Res.bind_ok, readHuffmanPrefixBit_of_le (by simp; omega), ← hval]
    rfl

end Machine

/-- Settles O1: the value read is `bitsLsb`, whose places are `bitsLsb_bit`. -/
theorem readBitsLsbFirst : Obligations.ReadBitsLsbFirst := by
  intro n s h
  exact ⟨bitsLsb s.inMem s.pos n, Machine.readBits_of_le h, bitsLsb_lt _ _ _, fun _ hi => bitsLsb_bit _ _ hi⟩

/-- Settles O4: from `hval = hcnt = 0` the value assembled is `bitsMsb`, whose places are `bitsMsb_bit`. -/
theorem prefixBitsAreMsbFirst : Obligations.PrefixBitsAreMsbFirst := by
  intro k s hval hcnt h
  have hrun : Machine.prefixBits k s = .ok () (s.setReader ⟨s.pos + k, bitsMsb s.inMem s.pos k, k⟩) := by
    simpa [hval, hcnt] using Machine.prefixBits_of_le h
  exact ⟨_, hrun, rfl, bitsMsb_lt _ _ _, fun _ hi => bitsMsb_bit _ _ hi, rfl⟩

end Sys2Proof
end

section
/-! PROOFS. One prefix bit (40_bitreader.md R133): shifted in where it is there, an error where the input has ended. -/

namespace Sys2Proof

namespace Machine

/-- Where no bit is left `readHuffmanPrefixBit` raises before it takes anything (40_bitreader.md R132, R133). -/
theorem readHuffmanPrefixBit_of_gt {s : State} (h : 8 * s.inLen < s.pos + 1) :
    readHuffmanPrefixBit s = raise .unexpectedEndOfStream s := by
  unfold readHuffmanPrefixBit
  rw [prefixBit_eq_none.mpr h]

end Machine

/-- Settles O3: `readHuffmanPrefixBit_of_le` where a bit is left, `readHuffmanPrefixBit_of_gt` where none is. -/
theorem prefixBitShiftsInLow : Obligations.PrefixBitShiftsInLow := by
  intro s
  constructor
  · intro hleft
    rw [Machine.readHuffmanPrefixBit_of_le hleft, Nat.mul_comm]
    rfl
  · intro hend
    rw [Machine.readHuffmanPrefixBit_of_gt hend, Machine.raise_def, Machine.State.raise_eq_failedAt]

end Sys2Proof
end

section
/-! PROOFS. The symbol decoder as a loop over the state's own registers (42_huffman_decode.md R171): the scan over the input
alone, written back into the state, is that loop. -/

namespace Sys2Proof

namespace Machine

@[simp] theorem State.setReader_setReader (s : State) (q r : Reader) : (s.setReader q).setReader r = s.setReader r := rfl

/-- A scan's end written back into the state: the symbol with the reader after it, or the error where the input ended. -/
def afterScan (s : State) : Except Reader (Nat × Reader) → Res Nat
  | .ok (v, r) => .ok v (s.setReader r)
  | .error r => raise .unexpectedEndOfStream (s.setReader r)

theorem decodeSym_eq_afterScan (T : Table) (s : State) :
    decodeSym T s = afterScan s (decodeSymAt T s.inMem (8 * s.inLen) s.pos) := by
  cases h : decodeSymAt T s.inMem (8 * s.inLen) s.pos with
  | ok x => exact decodeSym_of_ok h
  | error r => exact decodeSym_of_error h

theorem decodeSymLoop_of_gt {T : Table} {n : Nat} {s : State} (h : 8 * s.inLen < s.pos + 1) :
    decodeSymLoop T (n + 1) s = raise .unexpectedEndOfStream s := by
  rw [decodeSymLoop, readHuffmanPrefixBit_of_gt h, raise_bind]

/-- The loop from any reader `r` is the scan from `r`. The loop has one turn more than there are bits left: its last turn
is the one in which `readHuffmanPrefixBit` raises. -/
theorem decodeSymLoop_setReader {T : Table} {s : State} {n : Nat} {r : Reader} (hn : n = 8 * s.inLen - r.pos) :
    decodeSymLoop T (n + 1) (s.setReader r) = afterScan s (scanSym T s.inMem (8 * s.inLen) n r) := by
  induction n generalizing r with
  | zero =>
    rw [decodeSymLoop_of_gt (by simp; omega)]
    rfl
  | succ n ih =>
    have hleft : r.pos + 1 ≤ 8 * s.inLen := by omega
    rw [decodeSymLoop, readHuffmanPrefixBit_of_le (by simpa using hleft), Res.bind_ok, scanSym,
      prefixBit_eq_some.mpr ⟨hleft, rfl⟩]
    cases hv : lookupCode T (r.hcnt + 1) (r.hval * 2 + inBit s.inMem r.pos) with
    | some v => simp [hv, afterScan]
    | none => simpa [hv] using ih (by simp only; omega)

end Machine

/-- Settles O13: `decodeSymLoop_setReader` from the cleared reader at the state's own cursor. -/
theorem decodeSymIsTheLoop : Obligations.DecodeSymIsTheLoop := by
  intro T s
  rw [Machine.decodeSym_eq_afterScan]
  exact (Machine.decodeSymLoop_setReader (r := ⟨s.pos, 0, 0⟩) rfl).symm

end Sys2Proof
end

section
/-! PROOFS. The literal code length (43_codelength_rle.md R182): its step is one append to the array. -/

namespace Sys2Proof

namespace Machine

/-- The step of `CL n` is its rule, which reads no bit and only appends (43_codelength_rle.md R182). -/
theorem exec_clN (n : Nat) (s : State) : exec (.clN n) s = .next (s.appendLengths [n]) := rfl

end Machine

/-- Settles O19: `exec_clN`, whose append writes `arr` alone. The step of every `CL n` is this append, so the bound on `n`,
which says which of them are elements of the stream, is not used. -/
theorem codeLengthAppends : Obligations.CodeLengthAppends := by
  intro n s _
  rw [Machine.exec_clN, Machine.State.appendLengths, Machine.State.setWork]

end Sys2Proof
end

section
/-! PROOFS. The fixed block's setup step (44_block.md R208): the two constant tables, no bit read. -/

namespace Sys2Proof

namespace Machine

/-- In the phase FixedTables the element takes its setup branch, not the header's latch (44_block.md R201, R208). -/
theorem exec_blockFixed_of_fixedTables (bfinal : Bool) {s : State} (hphase : s.phase = .fixedTables) :
    exec (.blockFixed bfinal) s = (ruleFixedSetup s).toOutcome :=
  if_pos hphase

end Machine

/-- Settles O28: the setup branch is `ruleFixedSetup`, a plain answer of the rule that writes the tables and the phase. -/
theorem fixedSetupStep : Obligations.FixedSetupStep := by
  intro f s hphase
  rw [Machine.exec_blockFixed_of_fixedTables f hphase, Machine.ruleFixedSetup, Machine.Res.toOutcome_ok]

end Sys2Proof
end

section
/-! PROOFS. The bit reader on bytes (20_memory.md R66; 40_bitreader.md R131 to R135): a field is read part after part, an
aligned byte is read as it stands, and a read that is cut off raises. -/

namespace Sys2Proof

/-- A field of `a + b` bits is its first `a` bits, the next `b` standing above them. -/
theorem bitsLsb_add (m : Memory) (p a b : Nat) :
    bitsLsb m p (a + b) = bitsLsb m p a + 2 ^ a * bitsLsb m (p + a) b := by
  induction b with
  | zero => simp [bitsLsb]
  | succ b ih => rw [← Nat.add_assoc, bitsLsb, ih, bitsLsb, Nat.pow_add, ← Nat.add_assoc p,
      Nat.mul_add, Nat.mul_left_comm, Nat.add_assoc]

/-- From a byte boundary on the bits are those of the byte, lowest first (20_memory.md R62). -/
theorem bitsLsb_aligned (m : Memory) (a : Nat) {n : Nat} (h : n ≤ 8) :
    bitsLsb m (8 * a) n = (Memory.read m a).toNat % 2 ^ n := by
  induction n with
  | zero => simp [bitsLsb, Nat.mod_one]
  | succ n ih =>
    have hbyte : (8 * a + n) / 8 = a := by omega
    have hplace : (8 * a + n) % 8 = n := by omega
    rw [bitsLsb, ih (by omega), inBit, hbyte, hplace, Nat.mod_pow_succ, Nat.mul_comm (2 ^ n)]

theorem bitsLsb_byte {m : Memory} {p : Nat} (h : p % 8 = 0) : bitsLsb m p 8 = (Memory.read m (p / 8)).toNat := by
  have hp : p = 8 * (p / 8) := by omega
  rw [hp, bitsLsb_aligned m _ (Nat.le_refl 8), ← hp]
  exact Nat.mod_eq_of_lt (Memory.read m (p / 8)).isLt

theorem bitsLsb_one (m : Memory) (p : Nat) : bitsLsb m p 1 = inBit m p := by simp [bitsLsb]

theorem alignUp_of_aligned {p : Nat} (h : p % 8 = 0) : alignUp p = p := by unfold alignUp; omega

open Machine

/-- Settles O5: an aligned byte is `bitsLsb_byte`; sixteen bits are two of them by `bitsLsb_add`. -/
theorem alignedReadsAreLittleEndian : Obligations.AlignedReadsAreLittleEndian := by
  intro s haligned
  constructor
  · intro hbyte
    rw [readBits_of_le (by omega), bitsLsb_byte haligned]
    rfl
  · intro hbytes
    have hnext : (s.pos + 8) / 8 = s.pos / 8 + 1 := by omega
    rw [readBits_of_le (by omega), bitsLsb_add s.inMem s.pos 8 8, bitsLsb_byte haligned,
      bitsLsb_byte (by omega : (s.pos + 8) % 8 = 0), hnext]
    rfl

/-- Settles O2: `readBits_of_gt`, `readBits_zero` and, for a code bit, `readHuffmanPrefixBit_of_gt`. -/
theorem readPastEndRaises : Obligations.ReadPastEndRaises := by
  intro n s
  refine ⟨fun hn hcut => ?_, readBits_zero s, fun hend => ?_⟩
  · rw [readBits_of_gt hn hcut, raise_def, State.raise_eq_failedAt]
  · rw [readHuffmanPrefixBit_of_gt (by omega), raise_def, State.raise_eq_failedAt]

/-- Settles O6: `alignByte` sets the cursor to `alignUp`, whose bounds are the lemmas on it. -/
theorem alignByteRoundsUp : Obligations.AlignByteRoundsUp := by
  intro s
  exact ⟨rfl, alignUp_mod s.pos, le_alignUp s.pos, alignUp_lt s.pos, alignUp_of_aligned, alignUp_le_of_le⟩

end Sys2Proof
end

section
/-! PROOFS. The table builder in closed form (41_huffman_build.md R151 to R156): where every length has room for its codes,
the table is the canonical codes length after length, with the key `(1, 1)` of a one-symbol array behind them. -/

namespace Sys2Proof

open Machine

@[ext] theorem Code.ext {c d : Code} (hlen : c.len = d.len) (hval : c.val = d.val) (hsym : c.sym = d.sym) : c = d := by
  cases c; cases d; simp only [Code.mk.injEq]; exact ⟨hlen, hval, hsym⟩

/-! ## The values given out at one length -/

/-- The symbols of length `L` have room: their values `first[L]`, `first[L] + 1`, ... are `L`-bit values (R154). -/
abbrev LengthFits (lens : List Nat) (L : Nat) : Prop := firstCode lens L + lens.count L ≤ 2 ^ L

/-- The codes of length `L` (R152, R153). -/
def codesOfLength (lens : List Nat) (L : Nat) : Table := assignCodes L (firstCode lens L) (symsOfLength L 0 lens)

/-- The codes of R151, all lengths. -/
def canonicalCodes (lens : List Nat) : Table := (List.range' 1 Config.maxBits).flatMap (codesOfLength lens)

theorem firstCode_succ {lens : List Nat} {L : Nat} (h : L ≠ 0) :
    firstCode lens (L + 1) = (firstCode lens L + lens.count L) * 2 := by
  rw [firstCode, if_neg h]

/-- The loop of R151 from length `L` on, entered with `next` at half of `first[L]`. -/
theorem buildLengths_eq {lens : List Nat} {n L next : Nat} (hL : L ≠ 0) (hnext : next * 2 = firstCode lens L) :
    buildLengths lens n L next =
      if ∀ k < n, LengthFits lens (L + k) then some ((List.range' L n).flatMap (codesOfLength lens)) else none := by
  induction n generalizing L next with
  | zero => simp [buildLengths]
  | succ n ih =>
    rw [buildLengths, hnext, symsOfLength_length, ih (by omega) (firstCode_succ hL).symm]
    have hall : (∀ k < n + 1, LengthFits lens (L + k)) ↔
        LengthFits lens L ∧ ∀ k < n, LengthFits lens (L + 1 + k) := by
      simp only [Nat.forall_lt_succ_left, Nat.add_zero, Nat.add_assoc, Nat.add_comm 1]
    by_cases hfit : LengthFits lens L
    · rw [if_neg (by omega)]
      by_cases hrest : ∀ k < n, LengthFits lens (L + 1 + k)
      · rw [if_pos hrest, if_pos (hall.mpr ⟨hfit, hrest⟩)]
        rfl
      · rw [if_neg hrest, if_neg (fun h => hrest (hall.mp h).2)]
        rfl
    · rw [if_pos (by omega), if_neg (fun h => hfit (hall.mp h).1)]

/-- The lengths the builder runs through, counted from 0 and from 1. -/
theorem lengthFits_forall_iff {lens : List Nat} :
    (∀ k < 15, LengthFits lens (1 + k)) ↔ ∀ L, 1 ≤ L → L ≤ 15 → LengthFits lens L := by
  constructor
  · intro h L h1 h15
    have := h (L - 1) (by omega)
    rwa [Nat.add_sub_cancel' h1] at this
  · exact fun h k hk => h (1 + k) (by omega) (by omega)

/-- The builder in closed form. -/
theorem build_eq (lens : List Nat) :
    build lens = if ∀ k < 15, LengthFits lens (1 + k) then some (canonicalCodes lens ++ singleSymbolCodes lens)
      else none := by
  rw [build, show Config.maxBits = 15 from rfl, buildLengths_eq (by decide) rfl]
  by_cases hfit : ∀ k < 15, LengthFits lens (1 + k)
  · rw [if_pos hfit, if_pos hfit]; rfl
  · rw [if_neg hfit, if_neg hfit]; rfl

theorem build_eq_some_iff {lens : List Nat} {T : Table} :
    build lens = some T ↔
      (∀ L, 1 ≤ L → L ≤ 15 → LengthFits lens L) ∧ T = canonicalCodes lens ++ singleSymbolCodes lens := by
  rw [← lengthFits_forall_iff, build_eq, Option.ite_none_right_eq_some, Option.some.injEq, eq_comm (a := T)]

theorem build_eq_none_iff {lens : List Nat} :
    build lens = none ↔ ¬ ∀ L, 1 ≤ L → L ≤ 15 → LengthFits lens L := by
  rw [← lengthFits_forall_iff, build_eq]
  by_cases hfit : ∀ k < 15, LengthFits lens (1 + k)
  · rw [if_pos hfit]
    exact ⟨fun h => (Option.some_ne_none _ h).elim, fun h => (h hfit).elim⟩
  · rw [if_neg hfit]
    exact ⟨fun _ => hfit, fun _ => rfl⟩

/-- The entries of the canonical part: each used symbol under its length and `first` plus its rank (R153). -/
theorem mem_canonicalCodes {lens : List Nat} {c : Code} :
    c ∈ canonicalCodes lens ↔ (1 ≤ c.len ∧ c.len ≤ 15) ∧ lens[c.sym]? = some c.len ∧
      c.val = firstCode lens c.len + rankOf lens c.sym c.len := by
  simp only [canonicalCodes, codesOfLength, List.mem_flatMap, List.mem_range'_1, mem_assignCodes, symsOfLength_getElem,
    Config.maxBits, Nat.zero_le, true_and, Nat.sub_zero, rankOf]
  constructor
  · rintro ⟨L, hL, rfl, hval, hsym, hrank⟩
    exact ⟨by omega, hsym, by omega⟩
  · rintro ⟨hlen, hsym, hval⟩
    exact ⟨c.len, by omega, rfl, by omega, hsym, by omega⟩

/-- The entry that R156 adds. -/
theorem mem_singleSymbolCodes {lens : List Nat} {c : Code} :
    c ∈ singleSymbolCodes lens ↔ usedSyms 0 lens = [(c.sym, 1)] ∧ c.len = 1 ∧ c.val = 1 := by
  unfold singleSymbolCodes
  split
  · rename_i s hs
    rw [if_pos (show Config.singleSymbolBothBits = true from rfl), List.mem_singleton, hs]
    constructor
    · rintro rfl; exact ⟨rfl, rfl, rfl⟩
    · rintro ⟨hsym, hlen, hval⟩
      exact Code.ext hlen hval (by simpa using hsym.symm)
  · rename_i hs
    simp only [List.not_mem_nil, false_iff]
    exact fun h => hs _ h.1

/-- Where exactly one symbol is used, a used symbol is that one. -/
theorem eq_of_usedSyms_singleton {lens : List Nat} {s l s' l' : Nat} (h : usedSyms 0 lens = [(s, l)])
    (h' : lens[s']? = some l') (hne : l' ≠ 0) : s' = s ∧ l' = l := by
  have hmem : (s', l') ∈ usedSyms 0 lens := mem_usedSyms.mpr ⟨Nat.zero_le _, hne, h'⟩
  simpa [h] using hmem

theorem getElem?_of_usedSyms_singleton {lens : List Nat} {s l : Nat} (h : usedSyms 0 lens = [(s, l)]) :
    lens[s]? = some l := by
  have hmem : (s, l) ∈ usedSyms 0 lens := by simp [h]
  exact (mem_usedSyms.mp hmem).2.2

/-! ## No key begins another key -/

/-- A symbol's rank is below the number of symbols of its length. -/
theorem rankOf_lt_count {lens : List Nat} {s L : Nat} (h : lens[s]? = some L) : rankOf lens s L < lens.count L := by
  obtain ⟨hs, hL⟩ := List.getElem?_eq_some_iff.mp h
  have hsplit : lens.count L = (lens.take s).count L + (lens.drop s).count L := by
    rw [← List.count_append, List.take_append_drop]
  have hpos : 0 < (lens.drop s).count L := by
    rw [List.count_pos_iff, List.drop_eq_getElem_cons hs, hL]
    exact List.mem_cons_self
  unfold rankOf; omega

/-- Symbols of one length and one rank are the same. -/
theorem eq_of_rankOf_eq {lens : List Nat} {s s' L : Nat} (h : lens[s]? = some L) (h' : lens[s']? = some L)
    (hrank : rankOf lens s L = rankOf lens s' L) : s = s' := by
  have hs := (symsOfLength_getElem L 0 lens _ s).mpr ⟨Nat.zero_le _, h, hrank⟩
  have hs' := (symsOfLength_getElem L 0 lens _ s').mpr ⟨Nat.zero_le _, h', rfl⟩
  exact Option.some.inj (hs.symm.trans hs')

/-- The values of a greater length start at or above every prolongation of the values of a smaller one (R155). -/
theorem firstCode_add_count_mul_le {lens : List Nat} {L : Nat} (hL : L ≠ 0) (k : Nat) :
    (firstCode lens L + lens.count L) * 2 ^ (k + 1) ≤ firstCode lens (L + (k + 1)) := by
  induction k with
  | zero => exact Nat.le_of_eq (firstCode_succ hL).symm
  | succ k ih =>
    rw [← Nat.add_assoc L, firstCode_succ (by omega), Nat.pow_succ, ← Nat.mul_assoc]
    exact Nat.mul_le_mul_right 2 (by omega)

theorem canonicalCodes_prefixFree (lens : List Nat) : PrefixFree (canonicalCodes lens) := by
  intro c hc d hd hle hprefix
  obtain ⟨⟨hc1, -⟩, hcsym, hcval⟩ := mem_canonicalCodes.mp hc
  obtain ⟨-, hdsym, hdval⟩ := mem_canonicalCodes.mp hd
  obtain heq | hlt := Nat.eq_or_lt_of_le hle
  · -- equal lengths: the keys are equal, so the ranks and the symbols are
    rw [heq, Nat.sub_self, Nat.pow_zero, Nat.div_one] at hprefix
    rw [heq] at hcsym hcval
    exact Code.ext heq hprefix.symm (eq_of_rankOf_eq hcsym hdsym (by omega))
  · -- a greater length: its values begin above all prolongations of the shorter key
    obtain ⟨k, hk⟩ : ∃ k, d.len = c.len + (k + 1) := ⟨d.len - c.len - 1, by omega⟩
    have hstart := firstCode_add_count_mul_le (lens := lens) (L := c.len) (by omega) k
    rw [← hk] at hstart
    have hge : firstCode lens c.len + lens.count c.len ≤ d.val / 2 ^ (d.len - c.len) := by
      rw [Nat.le_div_iff_mul_le (Nat.two_pow_pos _), hk, Nat.add_sub_cancel_left]
      omega
    have hrank := rankOf_lt_count hcsym
    omega

/-- A canonical key's value has as many bits as its length says (R155). -/
theorem val_lt_of_mem_canonicalCodes {lens : List Nat} {c : Code} (hfit : ∀ L, 1 ≤ L → L ≤ 15 → LengthFits lens L)
    (hc : c ∈ canonicalCodes lens) : c.val < 2 ^ c.len := by
  obtain ⟨⟨h1, h15⟩, hsym, hval⟩ := mem_canonicalCodes.mp hc
  have hroom : firstCode lens c.len + lens.count c.len ≤ 2 ^ c.len := hfit c.len h1 h15
  have hrank := rankOf_lt_count hsym
  omega

/-- The whole table of a one-symbol array of length 1 (R156). -/
theorem mem_table_of_single {lens : List Nat} {s : Nat} (hs : usedSyms 0 lens = [(s, 1)]) {c : Code} :
    c ∈ canonicalCodes lens ++ singleSymbolCodes lens ↔ c = ⟨1, 0, s⟩ ∨ c = ⟨1, 1, s⟩ := by
  have hget := getElem?_of_usedSyms_singleton hs
  have hrank : rankOf lens s 1 = 0 := by
    rw [rankOf, List.count_eq_zero]
    intro hmem
    obtain ⟨i, hi⟩ := List.mem_iff_getElem?.mp hmem
    obtain ⟨hlt, -⟩ := List.getElem?_eq_some_iff.mp hi
    rw [List.length_take] at hlt
    rw [List.getElem?_take_of_lt (by omega)] at hi
    have := (eq_of_usedSyms_singleton hs hi (by decide)).1
    omega
  rw [List.mem_append, mem_canonicalCodes, mem_singleSymbolCodes, hs]
  constructor
  · rintro (⟨⟨hlen, -⟩, hsym, hval⟩ | ⟨hsym, hlen, hval⟩)
    · obtain ⟨hcs, hcl⟩ := eq_of_usedSyms_singleton hs hsym (by omega)
      rw [hcl, hcs, hrank] at hval
      exact .inl (Code.ext hcl hval hcs)
    · exact .inr (Code.ext hlen hval (by simpa using hsym.symm))
  · rintro (rfl | rfl)
    · left; simp [hget, hrank, firstCode]
    · right; simp

theorem build_prefixFree {lens : List Nat} {T : Table} (h : build lens = some T) : PrefixFree T := by
  obtain ⟨-, rfl⟩ := build_eq_some_iff.mp h
  cases hsingle : singleSymbolCodes lens with
  | nil => rw [List.append_nil]; exact canonicalCodes_prefixFree lens
  | cons e rest =>
    have he := (mem_singleSymbolCodes.mp (hsingle ▸ List.mem_cons_self)).1
    intro c hc d hd _ hprefix
    rw [← hsingle] at hc hd
    rw [mem_table_of_single he] at hc hd
    obtain ⟨rfl | rfl, rfl | rfl⟩ := And.intro hc hd
    · rfl
    · simp at hprefix
    · simp at hprefix
    · rfl

theorem build_fits {lens : List Nat} {T : Table} (h : build lens = some T) : Machine.Table.fits T lens.length = true := by
  obtain ⟨hfit, rfl⟩ := build_eq_some_iff.mp h
  simp only [Machine.Table.fits, List.all_eq_true, Bool.and_eq_true, decide_eq_true_eq]
  intro c hc
  obtain hc | hc := List.mem_append.mp hc
  · obtain ⟨⟨h1, h15⟩, hsym, -⟩ := mem_canonicalCodes.mp hc
    exact ⟨⟨⟨h1, h15⟩, val_lt_of_mem_canonicalCodes hfit hc⟩, (List.getElem?_eq_some_iff.mp hsym).1⟩
  · obtain ⟨hs, hlen, hval⟩ := mem_singleSymbolCodes.mp hc
    have hlt := (List.getElem?_eq_some_iff.mp (getElem?_of_usedSyms_singleton hs)).1
    rw [hlen, hval]
    exact ⟨⟨⟨by decide, by decide⟩, by decide⟩, hlt⟩

/-- Where no key begins another, every entry is found under its own key. -/
theorem lookupCode_eq_some_iff {T : Table} (hT : PrefixFree T) {l v x : Nat} :
    lookupCode T l v = some x ↔ ⟨l, v, x⟩ ∈ T := by
  refine ⟨lookupCode_some, fun hmem => ?_⟩
  cases hlook : lookupCode T l v with
  | some y =>
    have hcode := hT _ (lookupCode_some hlook) _ hmem (Nat.le_refl l) (by simp)
    simpa using hcode
  | none =>
    exfalso
    clear hT
    induction T with
    | nil => simp at hmem
    | cons d T ih =>
      rw [lookupCode] at hlook
      split at hlook
      · simp at hlook
      · rename_i hd
        obtain rfl | hmem := List.mem_cons.mp hmem
        · exact hd ⟨rfl, rfl⟩
        · exact ih hmem hlook

/-! ## The Kraft sum -/

/-- The Kraft sum of the symbols of length at most `L`, in units of `2^-15`. -/
def kraftUpTo (lens : List Nat) (L : Nat) : Nat := (lens.map fun l => if l = 0 ∨ L < l then 0 else 2 ^ (15 - l)).sum

theorem kraftUpTo_succ (lens : List Nat) (L : Nat) :
    kraftUpTo lens (L + 1) = kraftUpTo lens L + lens.count (L + 1) * 2 ^ (15 - (L + 1)) := by
  induction lens with
  | nil => simp [kraftUpTo]
  | cons l lens ih =>
    simp only [kraftUpTo, List.map_cons, List.sum_cons] at ih ⊢
    rw [ih]
    by_cases hl : l = L + 1
    · rw [hl, List.count_cons_self, if_neg (by omega), if_pos (by omega), Nat.add_mul]
      omega
    · have hsame : (l = 0 ∨ L + 1 < l) ↔ (l = 0 ∨ L < l) := by omega
      rw [List.count_cons_of_ne hl]
      simp only [hsame]
      omega

theorem kraftUpTo_zero (lens : List Nat) : kraftUpTo lens 0 = 0 := by
  have hnone : ∀ l : Nat, l = 0 ∨ 0 < l := fun l => by omega
  induction lens with
  | nil => rfl
  | cons l lens ih =>
    rw [kraftUpTo] at ih ⊢
    rw [List.map_cons, List.sum_cons, ih, if_pos (hnone l)]

theorem kraftUpTo_le {lens : List Nat} {L L' : Nat} (h : L ≤ L') : kraftUpTo lens L ≤ kraftUpTo lens L' := by
  induction h with
  | refl => exact Nat.le_refl _
  | step _ ih => rw [Nat.succ_eq_add_one, kraftUpTo_succ]; omega

/-- The values given out up to length `L`, scaled to 15 bits, are the Kraft sum so far (R155). -/
theorem firstCode_add_count_mul {lens : List Nat} {L : Nat} (hL : 1 ≤ L) (h15 : L ≤ 15) :
    (firstCode lens L + lens.count L) * 2 ^ (15 - L) = kraftUpTo lens L := by
  induction hL with
  | refl => rw [kraftUpTo_succ, kraftUpTo_zero]; simp [firstCode]
  | @step L hL ih =>
    have hL : 1 ≤ L := hL
    have hpow : (2 : Nat) ^ (15 - L) = 2 * 2 ^ (15 - (L + 1)) := by rw [← Nat.pow_succ']; congr 1; omega
    rw [Nat.succ_eq_add_one] at h15 ⊢
    rw [kraftUpTo_succ, ← ih (by omega), firstCode_succ (by omega), hpow, Nat.add_mul, Nat.mul_assoc]

theorem lengthFits_iff_kraftUpTo {lens : List Nat} {L : Nat} (hL : 1 ≤ L) (h15 : L ≤ 15) :
    LengthFits lens L ↔ kraftUpTo lens L ≤ 2 ^ 15 := by
  have hpow : (2 : Nat) ^ 15 = 2 ^ L * 2 ^ (15 - L) := by rw [← Nat.pow_add]; congr 1; omega
  rw [← firstCode_add_count_mul hL h15, hpow, Nat.mul_le_mul_right_iff (Nat.two_pow_pos _)]

theorem kraftUpTo_of_le {lens : List Nat} (h : ∀ l ∈ lens, l ≤ 15) : kraftUpTo lens 15 = kraftSum lens := by
  unfold kraftUpTo kraftSum
  congr 1
  refine List.map_congr_left fun l hl => ?_
  have := h l hl
  have hsame : (l = 0 ∨ 15 < l) ↔ l = 0 := by omega
  simp only [hsame]

/-- Settles O9: the values up to length `L` fit exactly where the Kraft sum so far does, and that sum is greatest at 15. -/
theorem buildRejectsExactlyOversubscribed : Obligations.BuildRejectsExactlyOversubscribed := by
  intro lens hlens
  rw [build_eq_none_iff, ← kraftUpTo_of_le hlens, ← Nat.not_le]
  refine not_congr ⟨?_, ?_⟩
  · intro hfit
    exact (lengthFits_iff_kraftUpTo (by decide) (by decide)).mp (hfit 15 (by decide) (by decide))
  · intro hsum L h1 h15
    exact (lengthFits_iff_kraftUpTo h1 h15).mpr (Nat.le_trans (kraftUpTo_le h15) hsum)

/-! ## The statements about the tables -/

/-- Settles O10. -/
theorem builtTablesArePrefixFree : Obligations.BuiltTablesArePrefixFree :=
  fun _ _ hbuild => ⟨build_prefixFree hbuild, build_fits hbuild⟩

/-- A used symbol is found under its canonical key. -/
theorem lookupCode_build {lens : List Nat} {T : Table} (hbuild : build lens = some T) {s L : Nat}
    (hs : lens[s]? = some L) (h1 : 1 ≤ L) (h15 : L ≤ 15) :
    lookupCode T L (firstCode lens L + rankOf lens s L) = some s := by
  rw [lookupCode_eq_some_iff (build_prefixFree hbuild), (build_eq_some_iff.mp hbuild).2, List.mem_append]
  exact .inl (mem_canonicalCodes.mpr ⟨⟨h1, h15⟩, hs, rfl⟩)

/-- Settles O7. -/
theorem buildNumbersCanonically : Obligations.BuildNumbersCanonically :=
  fun _ _ hbuild _ _ hs h1 h15 => lookupCode_build hbuild hs h1 h15

/-- Settles O8: an entry is of the canonical part or the one of `singleSymbolCodes`. -/
theorem buildAddsNoOtherKey : Obligations.BuildAddsNoOtherKey := by
  intro lens T hbuild l v s hlook
  obtain ⟨-, rfl⟩ := build_eq_some_iff.mp hbuild
  obtain hc | hc := List.mem_append.mp (lookupCode_some hlook)
  · obtain ⟨⟨h1, h15⟩, hsym, hval⟩ := mem_canonicalCodes.mp hc
    exact .inl ⟨hsym, h1, h15, hval⟩
  · obtain ⟨hs, hl, hv⟩ := mem_singleSymbolCodes.mp hc
    exact .inr ⟨hl, hv, getElem?_of_usedSyms_singleton hs, fun _ _ h hne => (eq_of_usedSyms_singleton hs h hne).1⟩

/-! ## One used symbol of length 1 -/

/-- The shape of such an array: zeros around the 1. -/
theorem eq_zeros_one_zeros {lens : List Nat} {s : Nat} (hs : lens[s]? = some 1)
    (hrest : ∀ s' l, lens[s']? = some l → s' ≠ s → l = 0) :
    lens = List.replicate s 0 ++ 1 :: List.replicate (lens.length - (s + 1)) 0 := by
  obtain ⟨hlt, hone⟩ := List.getElem?_eq_some_iff.mp hs
  have htake : lens.take s = List.replicate s 0 := by
    refine List.eq_replicate_iff.mpr ⟨by rw [List.length_take]; omega, fun l hl => ?_⟩
    obtain ⟨i, hi, rfl⟩ := List.mem_iff_getElem.mp hl
    rw [List.length_take] at hi
    rw [List.getElem_take]
    exact hrest i _ (List.getElem?_eq_getElem (by omega)) (by omega)
  have hdrop : lens.drop (s + 1) = List.replicate (lens.length - (s + 1)) 0 := by
    refine List.eq_replicate_iff.mpr ⟨by simp, fun l hl => ?_⟩
    obtain ⟨i, hi, rfl⟩ := List.mem_iff_getElem.mp hl
    rw [List.length_drop] at hi
    rw [List.getElem_drop]
    exact hrest (s + 1 + i) _ (List.getElem?_eq_getElem (by omega)) (by omega)
  have hcons := List.drop_eq_getElem_cons hlt
  rw [hone] at hcons
  rw [← htake, ← hdrop, ← hcons, List.take_append_drop]

theorem usedSyms_zeros (b n : Nat) (ls : List Nat) : usedSyms b (List.replicate n 0 ++ ls) = usedSyms (b + n) ls := by
  induction n generalizing b with
  | zero => rfl
  | succ n ih => rw [List.replicate_succ, List.cons_append, usedSyms, if_pos rfl, ih, Nat.add_right_comm]; rfl

theorem usedSyms_zeros_one_zeros (s n : Nat) : usedSyms 0 (List.replicate s 0 ++ 1 :: List.replicate n 0) = [(s, 1)] := by
  have hrest : ∀ b, usedSyms b (List.replicate n 0) = [] := fun b => by
    have h := usedSyms_zeros b n []
    rwa [List.append_nil] at h
  rw [usedSyms_zeros, usedSyms, if_neg (by decide), hrest, Nat.zero_add]

/-- Settles O11: the Kraft sum is a half, so `build` succeeds; its entries are those of `mem_table_of_single`. -/
theorem singleSymbolFromEitherBit : Obligations.SingleSymbolFromEitherBit := by
  intro lens s hs hrest
  have hshape := eq_zeros_one_zeros hs hrest
  have hused : usedSyms 0 lens = [(s, 1)] := by rw [hshape]; exact usedSyms_zeros_one_zeros _ _
  have hkraft : kraftSum lens = 2 ^ 14 := by rw [hshape]; simp [kraftSum]
  have hle : ∀ l ∈ lens, l ≤ 15 := fun l hl => by
    rw [hshape] at hl
    simp at hl
    omega
  cases hbuild : build lens with
  | none =>
    have := (buildRejectsExactlyOversubscribed lens hle).mp hbuild
    omega
  | some T =>
    refine ⟨T, rfl, fun l v => Option.ext fun x => ?_⟩
    have hmem : ⟨l, v, x⟩ ∈ T ↔ (⟨l, v, x⟩ : Code) = ⟨1, 0, s⟩ ∨ (⟨l, v, x⟩ : Code) = ⟨1, 1, s⟩ := by
      rw [(build_eq_some_iff.mp hbuild).2]; exact mem_table_of_single hused
    rw [lookupCode_eq_some_iff (build_prefixFree hbuild), hmem]
    simp only [Code.mk.injEq, Option.ite_none_right_eq_some, Option.some.injEq]
    omega

/-! ## The fixed tables -/

theorem build_fixedLitLenLengths : build fixedLitLenLengths = some fixedLitLen := by
  have hsome : (build fixedLitLenLengths).isSome = true := by decide +kernel
  obtain ⟨T, hT⟩ := Option.isSome_iff_exists.mp hsome
  unfold fixedLitLen
  simp only [hT, Option.getD_some]

theorem build_fixedDistLengths : build fixedDistLengths = some fixedDist := by
  have hsome : (build fixedDistLengths).isSome = true := by decide +kernel
  obtain ⟨T, hT⟩ := Option.isSome_iff_exists.mp hsome
  unfold fixedDist
  simp only [hT, Option.getD_some]

/-- In a run of equal lengths the symbols' values follow each other. -/
theorem lookupCode_build_of_run {lens pre post : List Nat} {n L k : Nat} {T : Table} (hbuild : build lens = some T)
    (hlens : lens = pre ++ (List.replicate n L ++ post)) (hk : k < n) (h1 : 1 ≤ L) (h15 : L ≤ 15) :
    lookupCode T L (firstCode lens L + (pre.count L + k)) = some (pre.length + k) := by
  have hget : lens[pre.length + k]? = some L := by
    rw [hlens, List.getElem?_append_right (Nat.le_add_right _ _), Nat.add_sub_cancel_left,
      List.getElem?_append_left (by simpa using hk), List.getElem?_replicate_of_lt hk]
  have hrank : rankOf lens (pre.length + k) L = pre.count L + k := by
    have htake : (List.replicate n L ++ post).take k = List.replicate k L := by
      rw [List.take_append_of_le_length (by simpa using Nat.le_of_lt hk), List.take_replicate, Nat.min_eq_left (Nat.le_of_lt hk)]
    rw [rankOf, hlens, List.take_length_add_append, htake, List.count_append, List.count_replicate_self]
  rw [← hrank]
  exact lookupCode_build hbuild hget h1 h15

/-- The four runs of `FL` (R160), each from its first code. -/
theorem lookupCode_fixedLitLen :
    (∀ k < 144, lookupCode fixedLitLen 8 (48 + k) = some k) ∧
    (∀ k < 112, lookupCode fixedLitLen 9 (400 + k) = some (144 + k)) ∧
    (∀ k < 24, lookupCode fixedLitLen 7 k = some (256 + k)) ∧
    (∀ k < 8, lookupCode fixedLitLen 8 (192 + k) = some (280 + k)) := by
  have h8 : firstCode fixedLitLenLengths 8 = 48 := by decide +kernel
  have h9 : firstCode fixedLitLenLengths 9 = 400 := by decide +kernel
  have h7 : firstCode fixedLitLenLengths 7 = 0 := by decide +kernel
  refine ⟨fun k hk => ?_, fun k hk => ?_, fun k hk => ?_, fun k hk => ?_⟩
  · have h := lookupCode_build_of_run (pre := []) build_fixedLitLenLengths
      (by rw [fixedLitLenLengths, List.append_assoc, List.append_assoc]; rfl) hk (by decide) (by decide)
    simpa only [h8, List.count_nil, List.length_nil, Nat.zero_add] using h
  · have h := lookupCode_build_of_run (pre := List.replicate 144 8) build_fixedLitLenLengths
      (by rw [fixedLitLenLengths, List.append_assoc, List.append_assoc]) hk (by decide) (by decide)
    simpa only [h9, List.count_replicate, List.length_replicate, Nat.reduceBEq, Bool.false_eq_true, if_false,
      Nat.zero_add] using h
  · have h := lookupCode_build_of_run (pre := List.replicate 144 8 ++ List.replicate 112 9) build_fixedLitLenLengths
      (by rw [fixedLitLenLengths, List.append_assoc]) hk (by decide) (by decide)
    simpa only [h7, List.count_append, List.count_replicate, List.length_append, List.length_replicate, Nat.reduceBEq,
      Bool.false_eq_true, if_false, Nat.reduceAdd, Nat.zero_add] using h
  · have h := lookupCode_build_of_run (post := [])
      (pre := List.replicate 144 8 ++ List.replicate 112 9 ++ List.replicate 24 7) build_fixedLitLenLengths
      (by rw [fixedLitLenLengths, List.append_nil]) hk (by decide) (by decide)
    simpa only [h8, List.count_append, List.count_replicate, List.length_append, List.length_replicate, Nat.reduceBEq,
      Bool.false_eq_true, if_false, if_true, Nat.reduceAdd, ← Nat.add_assoc] using h

/-- The one run of `FD` (R161). -/
theorem lookupCode_fixedDist {d : Nat} (hd : d < 32) : lookupCode fixedDist 5 d = some d := by
  have h5 : firstCode fixedDistLengths 5 = 0 := by decide +kernel
  have h := lookupCode_build_of_run (pre := []) (post := []) build_fixedDistLengths
    (by rw [fixedDistLengths, List.append_nil]; rfl) hd (by decide) (by decide)
  simpa [h5] using h

/-- Settles O12: the codes run by run, and the sizes of the two tables, so that there is no other. -/
theorem fixedTableCodes : Obligations.FixedTableCodes := by
  obtain ⟨hlow, hnine, hseven, height⟩ := lookupCode_fixedLitLen
  refine ⟨fun s hs => ?_, fun d hd => lookupCode_fixedDist hd, ?_, ?_⟩
  · by_cases h143 : s ≤ 143
    · simp only [if_pos h143]
      exact hlow s (by omega)
    by_cases h255 : s ≤ 255
    · have h := hnine (s - 144) (by omega)
      rw [show 144 + (s - 144) = s by omega] at h
      simpa only [if_neg h143, if_pos h255] using h
    by_cases h279 : s ≤ 279
    · have h := hseven (s - 256) (by omega)
      rw [show 256 + (s - 256) = s by omega] at h
      simpa only [if_neg h143, if_neg h255, if_pos h279] using h
    · have h := height (s - 280) (by omega)
      rw [show 280 + (s - 280) = s by omega] at h
      simpa only [if_neg h143, if_neg h255, if_neg h279] using h
  · have hlength : (build fixedLitLenLengths).map List.length = some 288 := by decide +kernel
    simpa [build_fixedLitLenLengths] using hlength
  · have hlength : (build fixedDistLengths).map List.length = some 32 := by decide +kernel
    simpa [build_fixedDistLengths] using hlength

end Sys2Proof
end

section
/-! PROOFS. The symbol decoder on the input's prefixes (42_huffman_decode.md R171 to R174), and the decoder of the stream
against its encoder (30_encoding.md R90 to R114). -/

namespace Sys2Proof

open Machine

/-! ## The shortest match -/

/-- The reader after `j` code bits from the cursor `p` (20_memory.md R64). -/
def prefixReader (m : Memory) (p j : Nat) : Reader := ⟨p + j, bitsMsb m p j, j⟩

theorem prefixBit_prefixReader {m : Memory} {limit p j : Nat} (h : p + j < limit) :
    prefixBit m limit (prefixReader m p j) = some (prefixReader m p (j + 1)) :=
  prefixBit_eq_some.mpr ⟨h, rfl⟩

/-- One turn of the scan where a bit is left. -/
theorem scanSym_prefixReader {T : Table} {m : Memory} {limit p j n : Nat} (h : p + j < limit) :
    scanSym T m limit (n + 1) (prefixReader m p j) =
      match lookupCode T (j + 1) (bitsMsb m p (j + 1)) with
      | some v => .ok (v, prefixReader m p (j + 1))
      | none => scanSym T m limit n (prefixReader m p (j + 1)) := by
  rw [scanSym, prefixBit_prefixReader h]
  rfl

/-- The scan goes on over prefixes that are no keys. -/
theorem scanSym_skip {T : Table} {m : Memory} {limit p j k n : Nat} (hjk : j ≤ k) (hk : p + k ≤ limit)
    (hnone : ∀ i, j < i → i ≤ k → lookupCode T i (bitsMsb m p i) = none) :
    scanSym T m limit (n + (k - j)) (prefixReader m p j) = scanSym T m limit n (prefixReader m p k) := by
  induction hjk generalizing n with
  | refl => rw [Nat.sub_self, Nat.add_zero]
  | @step k hjk ih =>
    rw [Nat.succ_eq_add_one] at hk hnone ⊢
    have hjk : j ≤ k := hjk
    have hturns : n + (k + 1 - j) = n + 1 + (k - j) := by omega
    rw [hturns, ih (by omega) (fun i hi hik => hnone i hi (by omega)), scanSym_prefixReader (by omega),
      hnone (k + 1) (by omega) (Nat.le_refl _)]

/-- The first bit count at which the bits read are a key decides (R174 a). -/
theorem decodeSymAt_of_first {T : Table} {m : Memory} {limit p k v : Nat} (hk : 1 ≤ k) (hleft : p + k ≤ limit)
    (hkey : lookupCode T k (bitsMsb m p k) = some v)
    (hfirst : ∀ j, 1 ≤ j → j < k → lookupCode T j (bitsMsb m p j) = none) :
    decodeSymAt T m limit p = .ok (v, prefixReader m p k) := by
  obtain ⟨k, rfl⟩ : ∃ k', k = k' + 1 := ⟨k - 1, by omega⟩
  obtain ⟨n, hn⟩ : ∃ n, limit - p = n + 1 + (k - 0) := ⟨limit - p - 1 - k, by omega⟩
  rw [decodeSymAt, hn]
  calc scanSym T m limit (n + 1 + (k - 0)) (prefixReader m p 0)
      = scanSym T m limit (n + 1) (prefixReader m p k) :=
        scanSym_skip (Nat.zero_le k) (by omega) fun i hi hik => hfirst i hi (by omega)
    _ = .ok (v, prefixReader m p (k + 1)) := by rw [scanSym_prefixReader (by omega), hkey]

/-- Where nothing matches, the input is drained (R172, R173). -/
theorem decodeSymAt_of_none {T : Table} {m : Memory} {limit p : Nat} (hp : p ≤ limit)
    (hnone : ∀ j, 1 ≤ j → p + j ≤ limit → lookupCode T j (bitsMsb m p j) = none) :
    decodeSymAt T m limit p = .error (prefixReader m p (limit - p)) := by
  have h := scanSym_skip (T := T) (m := m) (limit := limit) (n := 0) (Nat.zero_le (limit - p)) (by omega)
    fun i hi hik => hnone i hi (by omega)
  rw [Nat.zero_add, Nat.sub_zero] at h
  exact h

/-- Settles O14. -/
theorem decodeSymReturnsFirstMatch : Obligations.DecodeSymReturnsFirstMatch := by
  intro T s k v hk hleft hkey hfirst
  rw [decodeSym_of_ok (decodeSymAt_of_first hk hleft hkey hfirst)]
  rfl

/-- Settles O15. -/
theorem decodeSymDrainsUnmatched : Obligations.DecodeSymDrainsUnmatched := by
  intro T s hpos hnone
  have hend : s.pos + (8 * s.inLen - s.pos) = 8 * s.inLen := by omega
  rw [decodeSym_of_error (decodeSymAt_of_none hpos hnone), raise_def]
  refine ⟨_, rfl, ?_⟩
  simp only [prefixReader, hend, State.raise, State.failedAt, State.setReader]

/-! ## Opcode numbers -/

/-- Every well-formed element is the one that its number names in its format (30_encoding.md R114). -/
theorem decodeNumber_number {i : Instr} (h : i.wellFormed = true) : decodeNumber i.format i.number = some i := by
  cases i with
  | blockStored f => exact Laws.Numbering.blockStored f h
  | blockFixed f => exact Laws.Numbering.blockFixed f h
  | blockDynamic f => exact Laws.Numbering.blockDynamic f h
  | blockReserved f => exact Laws.Numbering.blockReserved f h
  | clN n => exact Laws.Numbering.clN n h
  | lit b => exact Laws.Numbering.lit b h
  | _ => rfl

/-- `i` is a well-formed element of the format `f` with the number `n`. -/
abbrev NamedBy (f : Format) (n : Nat) (i : Instr) : Prop := i.format = f ∧ i.number = n ∧ i.wellFormed = true

/-- How many numbers a format with opcode bits has (30_encoding.md R114). -/
def Format.size : Format → Nat
  | .blkhdr => 8
  | .clsym => 19
  | .llsym => 288
  | .dsym => 32
  | .raw => 0

theorem blockElement_cases (b : Bool) (t : Nat) :
    (4 ≤ t ∧ blockElement b t = none) ∨
      ∃ i, t < 4 ∧ blockElement b t = some i ∧ NamedBy .blkhdr (b.toNat + 2 * t) i := by
  match t with
  | 0 => exact .inr ⟨_, by decide, rfl, rfl, rfl, rfl⟩
  | 1 => exact .inr ⟨_, by decide, rfl, rfl, rfl, rfl⟩
  | 2 => exact .inr ⟨_, by decide, rfl, rfl, rfl, rfl⟩
  | 3 => exact .inr ⟨_, by decide, rfl, rfl, rfl, rfl⟩
  | t + 4 => exact .inl ⟨by omega, rfl⟩

theorem litLenElements_named : ∀ k : Fin 32, NamedBy .llsym (256 + k) litLenElements[k] := by decide

theorem distElements_named : ∀ k : Fin 32, NamedBy .dsym k distElements[k] := by decide

/-- A number of a format with opcode bits is beyond the format's size and names no element, or it names one. -/
theorem decodeNumber_cases {f : Format} (hf : f ≠ .raw) (n : Nat) :
    (f.size ≤ n ∧ decodeNumber f n = none) ∨ ∃ i, n < f.size ∧ decodeNumber f n = some i ∧ NamedBy f n i := by
  cases f with
  | raw => exact absurd rfl hf
  | blkhdr =>
    have hflag : (decide (n % 2 = 1)).toNat + 2 * (n / 2) = n := by
      obtain h | h := Nat.mod_two_eq_zero_or_one n <;> simp [h] <;> omega
    obtain ⟨hle, hnone⟩ | ⟨i, hlt, hsome, hi⟩ := blockElement_cases (decide (n % 2 = 1)) (n / 2)
    · exact .inl ⟨by simp only [Format.size]; omega, hnone⟩
    · exact .inr ⟨i, by simp only [Format.size]; omega, hsome, hflag ▸ hi⟩
  | clsym =>
    by_cases h15 : n ≤ 15
    · exact .inr ⟨.clN n, by simp only [Format.size]; omega, if_pos h15, rfl, rfl, decide_eq_true h15⟩
    · match n, h15 with
      | 16, _ => exact .inr ⟨.cl16, by decide, rfl, rfl, rfl, rfl⟩
      | 17, _ => exact .inr ⟨.cl17, by decide, rfl, rfl, rfl, rfl⟩
      | 18, _ => exact .inr ⟨.cl18, by decide, rfl, rfl, rfl, rfl⟩
      | n + 19, _ => exact .inl ⟨by simp only [Format.size]; omega, by simp [decodeNumber]⟩
  | llsym =>
    by_cases h255 : n ≤ 255
    · refine .inr ⟨.lit (BitVec.ofNat 8 n), by simp only [Format.size]; omega, if_pos h255, rfl, ?_, rfl⟩
      exact (BitVec.toNat_ofNat n 8).trans (Nat.mod_eq_of_lt (by omega))
    · obtain ⟨k, rfl⟩ : ∃ k, n = 256 + k := ⟨n - 256, by omega⟩
      have hlist : decodeNumber .llsym (256 + k) = litLenElements[k]? := by
        rw [decodeNumber, if_neg h255, Nat.add_sub_cancel_left]
      by_cases hk : k < 32
      · exact .inr ⟨_, by simp only [Format.size]; omega, hlist.trans (List.getElem?_eq_getElem hk),
          litLenElements_named ⟨k, hk⟩⟩
      · exact .inl ⟨by simp only [Format.size]; omega, hlist.trans (List.getElem?_eq_none (Nat.le_of_not_lt hk))⟩
  | dsym =>
    by_cases hn : n < 32
    · exact .inr ⟨_, hn, List.getElem?_eq_getElem hn, distElements_named ⟨n, hn⟩⟩
    · exact .inl ⟨Nat.le_of_not_lt hn, List.getElem?_eq_none (Nat.le_of_not_lt hn)⟩

/-- Settles O17: the two cases of `decodeNumber_cases` exclude each other. -/
theorem numberNamesOneElement : Obligations.NumberNamesOneElement := by
  intro f n hf
  have hsize : (match f with | .blkhdr => 8 | .clsym => 19 | .llsym => 288 | .dsym => 32 | .raw => 0) = f.size := by
    cases f <;> rfl
  obtain ⟨hle, hnone⟩ | ⟨i, hlt, hsome, hi⟩ := decodeNumber_cases hf n
  · refine ⟨fun j hj => by simp [hnone] at hj, fun _ => ?_, fun _ => hnone⟩
    cases f <;> exact hle
  · refine ⟨fun j hj => ?_, fun h => by simp [hsome] at h, fun h => ?_⟩
    · rw [hsome, Option.some.injEq] at hj
      exact hj ▸ hi
    · exact absurd hlt (Nat.not_lt.mpr (by cases f <;> exact h))

/-! ## Decoding what was encoded -/

/-- A field written lowest bit first is read back lowest bit first (20_memory.md R63). -/
theorem bitsLsb_of_spells {m : Memory} {p v n : Nat} (h : Spells m p (lsbBits v n)) : bitsLsb m p n = v % 2 ^ n := by
  induction n generalizing p v with
  | zero => simp [bitsLsb, Nat.mod_one]
  | succ n ih =>
    obtain ⟨hbit, hrest⟩ := h
    rw [Nat.add_comm n, bitsLsb_add, bitsLsb_one, hbit, ih hrest, Nat.pow_one, Nat.add_comm 1, Nat.pow_succ',
      Nat.mod_mul]

/-- The first bit of `k + 1` is the highest. -/
theorem bitsMsb_succ' (m : Memory) (p k : Nat) : bitsMsb m p (k + 1) = inBit m p * 2 ^ k + bitsMsb m (p + 1) k := by
  induction k with
  | zero => simp [bitsMsb]
  | succ k ih => rw [bitsMsb, ih, bitsMsb, Nat.add_right_comm p 1 k, ← Nat.add_assoc p,
      Nat.add_mul, Nat.mul_assoc, ← Nat.pow_succ, Nat.add_assoc]

/-- A code written highest bit first is read back highest bit first (20_memory.md R64). -/
theorem bitsMsb_of_spells {m : Memory} {p v n : Nat} (h : Spells m p (msbBits v n)) : bitsMsb m p n = v % 2 ^ n := by
  induction n generalizing p with
  | zero => simp [bitsMsb, Nat.mod_one]
  | succ n ih =>
    obtain ⟨hbit, hrest⟩ := h
    rw [bitsMsb_succ', hbit, ih hrest, Nat.mod_pow_succ, Nat.mul_comm (2 ^ n), Nat.add_comm]

/-- The first `j` bits of a value of `j + d` bits are that value without its last `d` bits. -/
theorem bitsMsb_div (m : Memory) (p j d : Nat) : bitsMsb m p (j + d) / 2 ^ d = bitsMsb m p j := by
  induction d with
  | zero => simp
  | succ d ih =>
    have hhalf : bitsMsb m p (j + (d + 1)) / 2 = bitsMsb m p (j + d) := by
      have hb := inBit_lt_two m (p + (j + d))
      rw [← Nat.add_assoc, bitsMsb]; omega
    rw [Nat.pow_succ', ← Nat.div_div_eq_div_mul, hhalf, ih]

theorem lsbBits_length (v n : Nat) : (lsbBits v n).length = n := by
  induction n generalizing v with
  | zero => rfl
  | succ n ih => rw [lsbBits, List.length_cons, ih]

theorem msbBits_length (v n : Nat) : (msbBits v n).length = n := by
  induction n with
  | zero => rfl
  | succ n ih => rw [msbBits, List.length_cons, ih]

theorem codeOf_some {T : Table} {n : Nat} {c : Code} (h : codeOf T n = some c) : c ∈ T ∧ c.sym = n := by
  induction T with
  | nil => simp [codeOf] at h
  | cons d T ih =>
    rw [codeOf] at h
    split at h
    · rename_i hd
      obtain rfl := Option.some.inj h
      exact ⟨List.mem_cons_self, hd⟩
    · exact ⟨List.mem_cons_of_mem d (ih h).1, (ih h).2⟩

/-- Where a code stands in the input and no key begins another, the decoder reads its symbol: nothing shorter is a key. -/
theorem decodeSymAt_of_spells {T : Table} {m : Memory} {limit p : Nat} {c : Code} (hT : PrefixFree T) (hc : c ∈ T)
    (h1 : 1 ≤ c.len) (hval : c.val < 2 ^ c.len) (hbits : Spells m p (msbBits c.val c.len)) (hleft : p + c.len ≤ limit) :
    decodeSymAt T m limit p = .ok (c.sym, prefixReader m p c.len) := by
  have hread : bitsMsb m p c.len = c.val := (bitsMsb_of_spells hbits).trans (Nat.mod_eq_of_lt hval)
  refine decodeSymAt_of_first h1 hleft ?_ fun j hj hjc => ?_
  · rw [hread]; exact (lookupCode_eq_some_iff hT).mpr hc
  · refine Option.eq_none_iff_forall_ne_some.mpr fun x hx => ?_
    have hprefix : c.val / 2 ^ (c.len - j) = bitsMsb m p j := by
      rw [← hread, ← bitsMsb_div m p j (c.len - j), Nat.add_sub_cancel' (Nat.le_of_lt hjc)]
    have hsame := hT _ (lookupCode_some hx) c hc (Nat.le_of_lt hjc) hprefix
    have hlen : j = c.len := congrArg Code.len hsame
    omega

/-- In a format of symbols the opcode is a code of the table. -/
theorem decode_of_symbol {f : Format} {T : Table} {m : Memory} {limit p n : Nat} {r : Reader} (hraw : f ≠ .raw)
    (hhdr : f ≠ .blkhdr) (h : decodeSymAt T m limit p = .ok (n, r)) :
    decode f T m limit p = (decodeOpcode f n).map fun i => (i, r.pos) := by
  cases f with
  | raw => exact absurd rfl hraw
  | blkhdr => exact absurd rfl hhdr
  | clsym => simp only [decode, h]
  | llsym => simp only [decode, h]
  | dsym => simp only [decode, h]

theorem opcodeBits_of_symbol {f : Format} (hraw : f ≠ .raw) (hhdr : f ≠ .blkhdr) (T : Table) (n : Nat) :
    opcodeBits f T n = (codeOf T n).map fun c => msbBits c.val c.len := by
  cases f with
  | raw => exact absurd rfl hraw
  | blkhdr => exact absurd rfl hhdr
  | clsym => rfl
  | llsym => rfl
  | dsym => rfl

/-- Settles O16: a header is read back by `bitsLsb_of_spells`, a symbol by `decodeSymAt_of_spells`, and the number read
names the element by `decodeNumber_number`. -/
theorem decodeEncodeAgree : Obligations.DecodeEncodeAgree := by
  intro i lens T bits m limit pos hwf hbuild hencode hspells hleft
  have hnumber := decodeNumber_number hwf
  have hopcode : decodeOpcode i.format i.number = .ok i := by rw [decodeOpcode, hnumber]
  rw [encode] at hencode
  by_cases hraw : i.format = .raw
  · rw [hraw] at hnumber hencode ⊢
    obtain rfl := Option.some.inj hencode
    obtain rfl := Option.some.inj hnumber
    rfl
  by_cases hhdr : i.format = .blkhdr
  · rw [hhdr] at hencode hopcode hnumber ⊢
    obtain rfl := Option.some.inj hencode
    have hlt : i.number < 2 ^ 3 := by
      obtain ⟨-, hnone⟩ | ⟨_, hlt, -⟩ := decodeNumber_cases (f := .blkhdr) (by decide) i.number
      · simp [hnone] at hnumber
      · exact hlt
    rw [lsbBits_length] at hleft ⊢
    rw [decode, if_neg (by omega), bitsLsb_of_spells hspells, Nat.mod_eq_of_lt hlt, hopcode]
    rfl
  · rw [opcodeBits_of_symbol hraw hhdr] at hencode
    obtain ⟨c, hc, rfl⟩ := Option.map_eq_some_iff.mp hencode
    obtain ⟨hmem, hsym⟩ := codeOf_some hc
    have hfits := List.all_eq_true.mp (build_fits hbuild) c hmem
    simp only [Bool.and_eq_true, decide_eq_true_eq] at hfits
    obtain ⟨⟨⟨h1, -⟩, hval⟩, -⟩ := hfits
    rw [msbBits_length] at hleft ⊢
    rw [decode_of_symbol hraw hhdr (decodeSymAt_of_spells (build_prefixFree hbuild) hmem h1 hval hspells hleft), hsym,
      hopcode]
    rfl

/-- Settles O18: each word is an encoding, read back by `decodeEncodeAgree`; the headers need no table. -/
theorem specWordsDecode : Obligations.SpecWordsDecode := by
  have hnone : build [] = some [] := by decide +kernel
  have hfixed := build_fixedLitLenLengths
  have hdist := build_fixedDistLengths
  refine ⟨decodeEncodeAgree (.blockFixed true) [] [] [1, 1, 0] _ _ _ rfl hnone rfl ?_ (by decide),
    decodeEncodeAgree (.blockDynamic true) [] [] [1, 0, 1] _ _ _ rfl hnone rfl ?_ (by decide),
    decodeEncodeAgree (.blockReserved true) [] [] [1, 1, 1] _ _ _ rfl hnone rfl ?_ (by decide),
    decodeEncodeAgree (.lit 0x68) _ _ [1, 0, 0, 1, 1, 0, 0, 0] _ _ _ rfl hfixed (by decide +kernel) ?_ (by decide),
    decodeEncodeAgree .len259 _ _ [0, 0, 0, 0, 0, 1, 1] _ _ _ rfl hfixed (by decide +kernel) ?_ (by decide),
    decodeEncodeAgree .llrsv286 _ _ [1, 1, 0, 0, 0, 1, 1, 0] _ _ _ rfl hfixed (by decide +kernel) ?_ (by decide),
    decodeEncodeAgree .drsv30 _ _ [1, 1, 1, 1, 0] _ _ _ rfl hdist (by decide +kernel) ?_ (by decide)⟩
  all_goals
    simp only [Spells, and_true]
    decide +kernel

end Sys2Proof
end

section
/-! PROOFS. The code-length elements and the run that they make up (43_codelength_rle.md R181 to R188): the rule of a meta
symbol on the array and the cursor alone, and the core's loop as the run that `expandRun` describes. -/

namespace Sys2Proof

namespace Machine

/-! ## One element -/

/-- `base` and `n` extra bits many copies of `x` appended, the cursor after the extra bits. -/
def State.repeatLength (s : State) (base n x : Nat) : State :=
  (s.setPos (s.pos + n)).appendLengths (List.replicate (base + bitsLsb s.inMem s.pos n) x)

theorem readRepeat_append_of_le {base n x : Nat} {s : State} (h : s.pos + n ≤ 8 * s.inLen) :
    ((readRepeat base n s).bind fun r t => .ok () (t.appendLengths (List.replicate r x))) =
      .ok () (s.repeatLength base n x) := by
  rw [readRepeat_of_le h]; rfl

theorem readRepeat_append_of_gt {base n x : Nat} {s : State} (h0 : n ≠ 0) (h : 8 * s.inLen < s.pos + n) :
    ((readRepeat base n s).bind fun r t => Res.ok () (t.appendLengths (List.replicate r x))) =
      raise .unexpectedEndOfStream s := by
  rw [readRepeat_of_gt h0 h]; rfl

theorem ruleCl16_of_nil {s : State} (h : s.work.arr = []) : ruleCl16 s = raise .invalidRunLength s := by
  simp [ruleCl16, h]

theorem exec_cl16 (s : State) : exec .cl16 s = (ruleCl16 s).toOutcome := rfl

/-- Where a length precedes, `CL16` repeats it. -/
theorem ruleCl16_of_getLast {s : State} {prev : Nat} (h : s.work.arr.getLast? = some prev) :
    ruleCl16 s = (readRepeat 3 2 s).bind fun r t => .ok () (t.appendLengths (List.replicate r prev)) := by
  simp [ruleCl16, h]

end Machine

open Machine

/-- Settles O20. -/
theorem repeatPrecedingLength : Obligations.RepeatPrecedingLength := by
  intro s
  refine ⟨fun xs prev harr hleft => ?_, fun hnil => ?_, fun hne hcut => ?_⟩
  · have hlast : s.work.arr.getLast? = some prev := by rw [harr]; exact List.getLast?_concat
    rw [exec_cl16, ruleCl16_of_getLast hlast, readRepeat_append_of_le hleft]
    rfl
  · rw [exec_cl16, ruleCl16_of_nil hnil]
    rfl
  · rw [exec_cl16, ruleCl16_of_getLast (List.getLast?_eq_some_getLast hne), readRepeat_append_of_gt (by decide) hcut]
    rfl

/-- Settles O21. -/
theorem repeatZeroLengths : Obligations.RepeatZeroLengths := by
  intro s
  refine ⟨fun hleft => ?_, fun hcut => ?_, fun hleft => ?_, fun hcut => ?_⟩
  · exact congrArg Res.toOutcome (readRepeat_append_of_le (base := 3) (x := 0) hleft)
  · exact congrArg Res.toOutcome (readRepeat_append_of_gt (base := 3) (x := 0) (by decide) hcut)
  · exact congrArg Res.toOutcome (readRepeat_append_of_le (base := 11) (x := 0) hleft)
  · exact congrArg Res.toOutcome (readRepeat_append_of_gt (base := 11) (x := 0) (by decide) hcut)

namespace Machine

/-! ## The rule of a meta symbol -/

/-- `n` extra bits at the cursor, `base` and their value many copies of `x`; or the end of the input before the last of
them. -/
def repeatAt (m : Memory) (limit base n x : Nat) (arr : List Nat) (p : Nat) : Except ErrKind (List Nat × Nat) :=
  if limit < p + n then .error .unexpectedEndOfStream
  else .ok (arr ++ List.replicate (base + bitsLsb m p n) x, p + n)

/-- What the rule of the meta symbol `sym` comes to on the array and the cursor after the symbol's code (R182 to R185). -/
def elementAt (m : Memory) (limit sym : Nat) (arr : List Nat) (p : Nat) : Except ErrKind (List Nat × Nat) :=
  if sym ≤ 15 then .ok (arr ++ [sym], p)
  else if sym = 16 then
    if arr = [] then .error .invalidRunLength else repeatAt m limit 3 2 (arr.getLast?.getD 0) arr p
  else if sym = 17 then repeatAt m limit 3 3 0 arr p
  else repeatAt m limit 11 7 0 arr p

/-- A rule's answer that replaces the array and the cursor, or raises where the cursor stands. -/
def Res.OfElement (s : State) (r : Res Unit) : Except ErrKind (List Nat × Nat) → Prop
  | .ok (arr, p) => r = .ok () ((s.setPos p).setWork { s.work with arr := arr })
  | .error k => r = raise k s

theorem readRepeat_append_ofElement {base n x : Nat} {s : State} (h0 : n ≠ 0) :
    Res.OfElement s ((readRepeat base n s).bind fun r t => .ok () (t.appendLengths (List.replicate r x)))
      (repeatAt s.inMem (8 * s.inLen) base n x s.work.arr s.pos) := by
  unfold repeatAt
  split
  · exact readRepeat_append_of_gt h0 (by assumption)
  · exact readRepeat_append_of_le (by omega)

/-- The rule of a symbol of the meta-alphabet is `elementAt`. -/
theorem ruleClSym_ofElement {sym : Nat} {s : State} (hsym : sym < 19) :
    Res.OfElement s (ruleClSym sym s) (elementAt s.inMem (8 * s.inLen) sym s.work.arr s.pos) := by
  unfold ruleClSym elementAt
  split
  · rfl
  split
  · split
    next hnil => exact ruleCl16_of_nil hnil
    next hnil =>
    rw [List.getLast?_eq_some_getLast hnil, Option.getD_some, ruleCl16_of_getLast (List.getLast?_eq_some_getLast hnil)]
    exact readRepeat_append_ofElement (by decide)
  split
  · exact readRepeat_append_ofElement (by decide)
  split
  · exact readRepeat_append_ofElement (by decide)
  · omega

theorem repeatAt_ok {m : Memory} {limit base n x p q : Nat} {arr arr' : List Nat} (hbase : base ≠ 0)
    (h : repeatAt m limit base n x arr p = .ok (arr', q)) : arr.length < arr'.length ∧ p ≤ q ∧ q ≤ limit := by
  unfold repeatAt at h
  split at h
  · simp at h
  · simp only [Except.ok.injEq, Prod.mk.injEq] at h
    obtain ⟨rfl, rfl⟩ := h
    simp only [List.length_append, List.length_replicate]
    omega

theorem repeatAt_error {m : Memory} {limit base n x p : Nat} {arr : List Nat} {k : ErrKind}
    (h : repeatAt m limit base n x arr p = .error k) : k = .unexpectedEndOfStream := by
  unfold repeatAt at h
  split at h
  · exact (Except.error.inj h).symm
  · simp at h

/-- Every element appends at least one length and moves the cursor on, inside the input (R181). -/
theorem elementAt_ok {m : Memory} {limit sym p q : Nat} {arr arr' : List Nat} (hp : p ≤ limit)
    (h : elementAt m limit sym arr p = .ok (arr', q)) : arr.length < arr'.length ∧ p ≤ q ∧ q ≤ limit := by
  unfold elementAt at h
  split at h
  · simp only [Except.ok.injEq, Prod.mk.injEq] at h
    obtain ⟨rfl, rfl⟩ := h
    simp [hp]
  split at h
  · split at h
    · cases h
    · exact repeatAt_ok (by decide) h
  split at h
  · exact repeatAt_ok (by decide) h
  · exact repeatAt_ok (by decide) h

/-- The errors of a code-length run (R183, R188). -/
abbrev ErrKind.ofRun (k : ErrKind) : Prop := k = .unexpectedEndOfStream ∨ k = .invalidRunLength

theorem elementAt_error {m : Memory} {limit sym p : Nat} {arr : List Nat} {k : ErrKind}
    (h : elementAt m limit sym arr p = .error k) : k.ofRun := by
  unfold elementAt at h
  split at h
  · cases h
  split at h
  · split at h
    · exact .inr (Except.error.inj h).symm
    · exact .inl (repeatAt_error h)
  split at h
  · exact .inl (repeatAt_error h)
  · exact .inl (repeatAt_error h)

/-! ## The run -/

/-- What is left of a run after an element: the rest of it, or the element's error at its cursor. -/
def afterElement (M : Table) (N : Nat) (m : Memory) (limit fuel p : Nat) :
    Except ErrKind (List Nat × Nat) → Except (ErrKind × Nat) (List Nat × Nat)
  | .ok (arr, q) => expandRun M N m limit fuel arr q
  | .error k => .error (k, p)

theorem expandRun_of_le {M : Table} {N : Nat} {m : Memory} {limit fuel p : Nat} {arr : List Nat} (h : N ≤ arr.length) :
    expandRun M N m limit fuel arr p = .ok (arr.take N, p) := by
  cases fuel with
  | zero => exact if_neg (Nat.not_lt.mpr h)
  | succ fuel => exact if_pos h

theorem expandRun_of_error {M : Table} {N : Nat} {m : Memory} {limit fuel p : Nat} {arr : List Nat} {r : Reader}
    (h : arr.length < N) (hsym : decodeSymAt M m limit p = .error r) :
    expandRun M N m limit (fuel + 1) arr p = .error (.unexpectedEndOfStream, r.pos) := by
  rw [expandRun, if_neg (Nat.not_le.mpr h), hsym]

/-- A turn of the run: one symbol, its element, the rest. -/
theorem expandRun_of_ok {M : Table} {N : Nat} {m : Memory} {limit fuel p sym : Nat} {arr : List Nat} {r : Reader}
    (h : arr.length < N) (hsym : decodeSymAt M m limit p = .ok (sym, r)) :
    expandRun M N m limit (fuel + 1) arr p =
      afterElement M N m limit fuel r.pos (elementAt m limit sym arr r.pos) := by
  rw [expandRun, if_neg (Nat.not_le.mpr h), hsym]
  unfold elementAt repeatAt
  dsimp only
  repeat' split
  all_goals rfl

/-- How a run from the cursor `p` may end: with `N` lengths or in one of two errors, the cursor moved on, not beyond the
end of the input. -/
def RunEnds (N limit p : Nat) : Except (ErrKind × Nat) (List Nat × Nat) → Prop
  | .ok (xs, q) => xs.length = N ∧ p ≤ q ∧ q ≤ max p limit
  | .error (k, q) => k.ofRun ∧ p ≤ q ∧ q ≤ max p limit

/-- What holds from a later cursor holds from an earlier one. -/
theorem RunEnds.of_later {N limit p p' : Nat} {e : Except (ErrKind × Nat) (List Nat × Nat)} (h : RunEnds N limit p' e)
    (hp : p ≤ p') (hlimit : p' ≤ limit) : RunEnds N limit p e := by
  cases e with
  | ok x =>
    obtain ⟨hlen, hq, hle⟩ := h
    exact ⟨hlen, by omega, by omega⟩
  | error x =>
    obtain ⟨hk, hq, hle⟩ := h
    exact ⟨hk, by omega, by omega⟩

theorem take_ends {N limit p : Nat} {arr : List Nat} (h : N ≤ arr.length) : RunEnds N limit p (.ok (arr.take N, p)) :=
  ⟨List.length_take_of_le h, Nat.le_refl p, Nat.le_max_left p limit⟩

/-- A run with turns enough ends so: every turn appends a length, and the guard of R187 is not reached. -/
theorem expandRun_ends {M : Table} {N : Nat} {m : Memory} {limit fuel p : Nat} {arr : List Nat}
    (hfuel : N ≤ arr.length + fuel) : RunEnds N limit p (expandRun M N m limit fuel arr p) := by
  induction fuel generalizing arr p with
  | zero => rw [expandRun_of_le hfuel]; exact take_ends hfuel
  | succ fuel ih =>
    obtain hN | hN := Nat.lt_or_ge arr.length N
    · cases hsym : decodeSymAt M m limit p with
      | error r =>
        rw [expandRun_of_error hN hsym]
        have hr := decodeSymAt_error hsym
        exact ⟨.inl rfl, by omega, by omega⟩
      | ok x =>
        obtain ⟨sym, r⟩ := x
        rw [expandRun_of_ok hN hsym]
        obtain ⟨hpr, hr, -⟩ := decodeSymAt_ok hsym
        cases helem : elementAt m limit sym arr r.pos with
        | error k => exact ⟨elementAt_error helem, by omega, by omega⟩
        | ok y =>
          obtain ⟨hgrow, hle, hlimit⟩ := elementAt_ok hr helem
          exact (ih (by omega)).of_later (by omega) hlimit
    · rw [expandRun_of_le hN]; exact take_ends hN

/-- The same for a whole run. -/
theorem expandRun_whole_ends (M : Table) (N : Nat) (m : Memory) (limit p : Nat) :
    RunEnds N limit p (expandRun M N m limit N [] p) := expandRun_ends (Nat.le_add_left _ _)

/-! ## The core's loop is that run -/

/-- A rule that raises `k` with the cursor at `p`: nothing but the cursor, the error entry and working registers is
written (60_exceptions.md R266). -/
def Res.FailsAt {α : Type} (s : State) (r : Res α) (k : ErrKind) (p : Nat) : Prop :=
  ∃ w, r = .stop (.next ((s.failedAt k p).setWork w))

theorem Res.FailsAt.bind {α β : Type} {s : State} {r : Res α} {k : ErrKind} {p : Nat} (h : Res.FailsAt s r k p)
    (f : α → State → Res β) : Res.FailsAt s (r.bind f) k p := by
  obtain ⟨w, rfl⟩ := h
  exact ⟨w, rfl⟩

/-- The cursor and the registers written before an error do not matter to what it leaves. -/
theorem Res.FailsAt.of_written {α : Type} {s : State} {r : Res α} {k : ErrKind} {p q : Nat} {w : Work}
    (h : Res.FailsAt ((s.setPos q).setWork w) r k p) : Res.FailsAt s r k p := h

theorem Res.FailsAt.next {α : Type} {s : State} {r : Res α} {k : ErrKind} {p : Nat} (h : Res.FailsAt s r k p) :
    ∃ w, r.toOutcome = .next ((s.failedAt k p).setWork w) := by
  obtain ⟨w, rfl⟩ := h
  exact ⟨w, rfl⟩

/-- What a run on the input says of the core's: the lengths, with the cursor, the array and the decoder's two registers
written, or the failed state. -/
def Res.OfRun (s : State) (r : Res (List Nat)) : Except (ErrKind × Nat) (List Nat × Nat) → Prop
  | .ok (xs, p) => ∃ v c, r = .ok xs ((s.setPos p).setWork { s.work with hval := v, hcnt := c, arr := xs })
  | .error (k, p) => Res.FailsAt s r k p

/-- The cursor and the three registers a run writes itself do not matter to what it says. -/
theorem Res.OfRun.of_written {s : State} {p v c : Nat} {arr : List Nat} {r : Res (List Nat)}
    {e : Except (ErrKind × Nat) (List Nat × Nat)}
    (h : Res.OfRun ((s.setPos p).setWork { s.work with hval := v, hcnt := c, arr := arr }) r e) : Res.OfRun s r e := by
  cases e with
  | ok x => exact h
  | error x => exact h

/-- The loop with its end, from any point of the run on. -/
theorem rleLoop_ofRun {M : Table} {N fuel : Nat} {s : State} (hM : Table.fits M 19 = true)
    (hfuel : N ≤ s.work.arr.length + fuel) :
    Res.OfRun s ((rleLoop M N fuel s).bind fun _ t => rleFinish N t)
      (expandRun M N s.inMem (8 * s.inLen) fuel s.work.arr s.pos) := by
  induction fuel generalizing s with
  | zero =>
    rw [expandRun_of_le hfuel, rleLoop, Res.bind_ok, rleFinish_of_le hfuel]
    exact ⟨s.work.hval, s.work.hcnt, rfl⟩
  | succ fuel ih =>
    obtain hN | hN := Nat.lt_or_ge s.work.arr.length N
    · rw [rleLoop, if_pos hN]
      cases hsym : decodeSymAt M s.inMem (8 * s.inLen) s.pos with
      | error r =>
        rw [expandRun_of_error hN hsym, decodeSym_of_error hsym]
        exact ⟨_, rfl⟩
      | ok x =>
        obtain ⟨sym, r⟩ := x
        rw [expandRun_of_ok hN hsym, decodeSym_of_ok hsym, Res.bind_ok]
        obtain ⟨-, hr, -, hkey⟩ := decodeSymAt_ok hsym
        have hrule := ruleClSym_ofElement (s := s.setReader r) (lookupCode_lt hM hkey)
        simp only [State.setReader_inMem, State.setReader_inLen, State.setReader_work, State.setReader_pos] at hrule
        cases helem : elementAt s.inMem (8 * s.inLen) sym s.work.arr r.pos with
        | error k =>
          rw [helem] at hrule
          rw [show ruleClSym sym (s.setReader r) = raise k _ from hrule]
          exact ⟨_, rfl⟩
        | ok y =>
          obtain ⟨arr, p⟩ := y
          rw [helem] at hrule
          rw [show ruleClSym sym (s.setReader r) = .ok () _ from hrule]
          obtain ⟨hgrow, -⟩ := elementAt_ok hr helem
          refine Res.OfRun.of_written (p := p) (v := r.hval) (c := r.hcnt) (arr := arr) ?_
          exact ih (by simp only [State.setWork_work]; omega)
    · rw [rleLoop, if_neg (Nat.not_lt.mpr hN), expandRun_of_le hN, Res.bind_ok, rleFinish_of_le hN]
      exact ⟨s.work.hval, s.work.hcnt, rfl⟩

/-- A whole run (R181): it starts with an empty array and as many turns as lengths. -/
theorem rle_ofRun {M : Table} (N : Nat) (s : State) (hM : Table.fits M 19 = true) :
    Res.OfRun s (rle M N s) (expandRun M N s.inMem (8 * s.inLen) N [] s.pos) :=
  Res.OfRun.of_written (p := s.pos) (v := s.work.hval) (c := s.work.hcnt) (arr := [])
    (rleLoop_ofRun (s := s.setWork { s.work with arr := [] }) hM (Nat.le_add_left _ _))

end Machine

/-- Settles O22: the run is `rle_ofRun`, the number of lengths and the kinds of error `expandRun_ends`. -/
theorem runExpandsAsDescribed : Obligations.RunExpandsAsDescribed := by
  intro M N s hM
  have hrun := rle_ofRun N s hM
  have hends := expandRun_whole_ends M N s.inMem (8 * s.inLen) s.pos
  refine ⟨fun xs p hok => ?_, fun k p herror => ?_⟩
  · rw [hok] at hrun hends
    obtain ⟨v, c, hrle⟩ := hrun
    exact ⟨hends.1, _, hrle, rfl⟩
  · rw [herror] at hrun hends
    obtain ⟨w, hrle⟩ := hrun
    exact ⟨hends.1, _, hrle, rfl⟩

namespace Machine

/-! ## A turn of the loop and the element's own step -/

theorem exec_of_clsym {sym : Nat} {i : Instr} (h : decodeNumber .clsym sym = some i) (s : State) :
    exec i s = (ruleClSym sym s).toOutcome ∧ sym < 19 := by
  revert h
  unfold decodeNumber ruleClSym
  dsimp only
  split
  · rintro ⟨⟩; exact ⟨rfl, by omega⟩
  split
  · rintro ⟨⟩; exact ⟨rfl, by omega⟩
  split
  · rintro ⟨⟩; exact ⟨rfl, by omega⟩
  split
  · rintro ⟨⟩; exact ⟨rfl, by omega⟩
  · rintro ⟨⟩

end Machine

/-- Settles O23: the element's step ends in Failed exactly where its rule raises. -/
theorem codeLengthLoopRunsElement : Obligations.CodeLengthLoopRunsElement := by
  intro M N fuel sym i s t u hphase hN hsym hi hexec
  obtain ⟨hrule, hlt⟩ := exec_of_clsym hi t
  have hkept : t.phase = s.phase := by
    have hpost := decodeSym_post M s
    rw [hsym] at hpost
    obtain ⟨r, -, -, -, -, rfl⟩ := hpost
    rfl
  rw [rleLoop, if_pos hN, hsym, Res.bind_ok]
  rw [hrule] at hexec
  have helem := ruleClSym_ofElement (s := t) hlt
  cases hres : elementAt t.inMem (8 * t.inLen) sym t.work.arr t.pos with
  | error k =>
    rw [hres] at helem
    rw [show ruleClSym sym t = raise k t from helem] at hexec ⊢
    obtain rfl := Host.Outcome.next.inj hexec
    rfl
  | ok y =>
    rw [hres] at helem
    rw [show ruleClSym sym t = .ok () _ from helem] at hexec ⊢
    obtain rfl := Host.Outcome.next.inj hexec
    rw [if_neg (by simpa [hkept] using hphase)]
    rfl

end Sys2Proof
end

section
/-! PROOFS. Block headers, stored bodies and the end of a block (44_block.md R200 to R207). -/

namespace Sys2Proof

namespace Machine

/-! ## The header step -/

theorem exec_blockStored_of_ne (f : Bool) {s : State} (h : s.phase ≠ .stored) :
    exec (.blockStored f) s = .next (s.latchHeader f 0 .stored) := if_neg h

theorem exec_blockFixed_of_ne (f : Bool) {s : State} (h : s.phase ≠ .fixedTables) :
    exec (.blockFixed f) s = .next (s.latchHeader f 1 .fixedTables) := if_neg h

theorem exec_blockDynamic_of_ne (f : Bool) {s : State} (h : s.phase ≠ .dynamicTables) :
    exec (.blockDynamic f) s = .next (s.latchHeader f 2 .dynamicTables) := if_neg h

theorem exec_blockReserved (f : Bool) (s : State) :
    exec (.blockReserved f) s = .next ((s.latchHeader f 3 s.phase).raise .unsupportedBlockType) := rfl

/-- The state after a header's three bits, of value `n` (R201; 30_encoding.md R91). -/
def State.withHeader (s : State) (n : Nat) : State :=
  { s with pos := s.pos + 3, bfinal := decide (n % 2 = 1), btype := BitVec.ofNat 2 (n / 2) }

/-- A header's value is its final flag and, above it, its type. -/
theorem bitsLsb_header (m : Memory) (p : Nat) : bitsLsb m p 3 = bitsLsb m p 1 + 2 * bitsLsb m (p + 1) 2 :=
  bitsLsb_add m p 1 2

theorem fetchHeader_of_none {s : State} (h : 8 * s.inLen < s.pos + 1) :
    fetchHeader s = raise .unexpectedEndOfStream s := by
  rw [fetchHeader, readBits_of_gt (by decide) h, raise_bind]

theorem fetchHeader_of_flag {s : State} (h : s.pos + 1 ≤ 8 * s.inLen) (hcut : 8 * s.inLen < s.pos + 3) :
    fetchHeader s = raise .unexpectedEndOfStream
      { s with pos := s.pos + 1, bfinal := decide (bitsLsb s.inMem s.pos 1 = 1) } := by
  rw [fetchHeader, readBits_of_le h, Res.bind_ok, readBits_of_gt (by decide) (by simpa using by omega), raise_bind]
  rfl

/-- With three bits left the header names its element. -/
theorem fetchHeader_of_le {s : State} {n : Nat} {i : Instr} (h : s.pos + 3 ≤ 8 * s.inLen)
    (hn : n = bitsLsb s.inMem s.pos 3) (hi : decodeNumber .blkhdr n = some i) :
    fetchHeader s = .ok i (s.withHeader n) := by
  have hflag : bitsLsb s.inMem s.pos 1 < 2 := bitsLsb_lt s.inMem s.pos 1
  rw [bitsLsb_header] at hn
  have hlow : n % 2 = bitsLsb s.inMem s.pos 1 := by omega
  have hhigh : n / 2 = bitsLsb s.inMem (s.pos + 1) 2 := by omega
  rw [fetchHeader, readBits_of_le (by omega), Res.bind_ok, readBits_of_le (by simpa using by omega), Res.bind_ok]
  simp only [State.setPos_inMem, State.setPos_pos, ← hn, hi, State.withHeader, hlow, hhigh]
  rfl

theorem step_of_awaitingHeader {s : State} (hq : s.quiet) (hphase : s.phase = .awaitingHeader) :
    step s = (fetchHeader s).thenStep exec := by
  rw [step_of_quiet hq, fetch, hphase]

end Machine

open Machine

/-- Settles O25. -/
theorem headerElementsLatch : Obligations.HeaderElementsLatch := by
  intro f s
  exact ⟨exec_blockStored_of_ne f, exec_blockFixed_of_ne f, exec_blockDynamic_of_ne f, exec_blockReserved f s⟩

/-- Settles O24: the cut-off reads are `fetchHeader_of_none` and `fetchHeader_of_flag`; a whole header's element is run in
AwaitingHeader, where it latches or raises. -/
theorem headerStep : Obligations.HeaderStep := by
  intro s hq hphase
  rw [step_of_awaitingHeader hq hphase]
  refine ⟨fun hnone => ?_, fun hone hcut => ?_, fun hleft => ?_⟩
  · rw [fetchHeader_of_none hnone]
    rfl
  · rw [fetchHeader_of_flag hone hcut, bitsLsb_one]
    rfl
  · have hb0 := inBit_lt_two s.inMem s.pos
    have hb1 := inBit_lt_two s.inMem (s.pos + 1)
    have hb2 := inBit_lt_two s.inMem (s.pos + 2)
    have hn : bitsLsb s.inMem s.pos 3 =
        inBit s.inMem s.pos + 2 * (inBit s.inMem (s.pos + 1) + 2 * inBit s.inMem (s.pos + 2)) := by
      simp only [bitsLsb, Nat.add_zero]; omega
    generalize hty : inBit s.inMem (s.pos + 1) + 2 * inBit s.inMem (s.pos + 2) = ty at hn
    have hlow : bitsLsb s.inMem s.pos 3 % 2 = inBit s.inMem s.pos := by omega
    have hhigh : bitsLsb s.inMem s.pos 3 / 2 = ty := by omega
    obtain ⟨i, hi⟩ : ∃ i, blockElement (decide (inBit s.inMem s.pos = 1)) ty = some i := by
      obtain ⟨hle, -⟩ | ⟨i, -, hi, -⟩ := blockElement_cases (decide (inBit s.inMem s.pos = 1)) ty
      · omega
      · exact ⟨i, hi⟩
    have hnumber : decodeNumber .blkhdr (bitsLsb s.inMem s.pos 3) = some i := by
      rw [decodeNumber, hlow, hhigh, hi]
    have hne : ∀ p : Phase, p ≠ .awaitingHeader → (s.withHeader (bitsLsb s.inMem s.pos 3)).phase ≠ p :=
      fun p hp h => hp (h.symm.trans hphase)
    rw [fetchHeader_of_le hleft rfl hnumber, Res.thenStep_ok]
    obtain rfl | rfl | rfl | rfl : ty = 0 ∨ ty = 1 ∨ ty = 2 ∨ ty = 3 := by omega
    · obtain rfl := Option.some.inj hi
      rw [exec_blockStored_of_ne _ (hne _ (by decide)), State.withHeader, hlow, hhigh]
      rfl
    · obtain rfl := Option.some.inj hi
      rw [exec_blockFixed_of_ne _ (hne _ (by decide)), State.withHeader, hlow, hhigh]
      rfl
    · obtain rfl := Option.some.inj hi
      rw [exec_blockDynamic_of_ne _ (hne _ (by decide)), State.withHeader, hlow, hhigh]
      rfl
    · obtain rfl := Option.some.inj hi
      rw [exec_blockReserved, State.withHeader, hlow, hhigh]
      rfl

namespace Machine

/-! ## The stored header step -/

theorem exec_blockStored_of_stored (f : Bool) {s : State} (h : s.phase = .stored) :
    exec (.blockStored f) s = (ruleStoredSetup s).toOutcome := if_pos h

/-- Two 16-bit fields are complements of each other where their values add up to 65535 (R206). -/
theorem complementOk_iff {n c : Nat} (hn : n < 2 ^ 16) (hc : c < 2 ^ 16) :
    complementOk (BitVec.ofNat 16 n) (BitVec.ofNat 16 c) = true ↔ n + c = 65535 := by
  have hones : (0xFFFF#16) = BitVec.allOnes 16 := rfl
  have hxor : ∀ x y : BitVec 16, x ^^^ y = BitVec.allOnes 16 ↔ y = ~~~x := by
    intro x y
    rw [← BitVec.xor_allOnes]
    constructor
    · intro h; rw [← h, ← BitVec.xor_assoc, BitVec.xor_self, BitVec.zero_xor]
    · intro h; rw [h, ← BitVec.xor_assoc, BitVec.xor_self, BitVec.zero_xor]
  rw [complementOk, beq_iff_eq, hones, hxor, ← BitVec.toNat_inj, BitVec.toNat_not, BitVec.toNat_ofNat,
    BitVec.toNat_ofNat, Nat.mod_eq_of_lt hn, Nat.mod_eq_of_lt hc]
  omega

/-- The state after LEN and NLEN have been read from the next byte boundary on. -/
def State.withStoredLengths (s : State) : State :=
  (s.setPos (alignUp s.pos + 32)).setWork { s.work with
    lenField := BitVec.ofNat 16 (bitsLsb s.inMem (alignUp s.pos) 16)
    nlenField := BitVec.ofNat 16 (bitsLsb s.inMem (alignUp s.pos + 16) 16) }

theorem readStoredLengths_of_none {s : State} (h : 8 * s.inLen < alignUp s.pos + 16) :
    readStoredLengths s.alignByte = raise .unexpectedEndOfStream s.alignByte := by
  rw [readStoredLengths, readBits_of_gt (by decide) h, raise_bind]

theorem readStoredLengths_of_len {s : State} (h : alignUp s.pos + 16 ≤ 8 * s.inLen)
    (hcut : 8 * s.inLen < alignUp s.pos + 32) :
    readStoredLengths s.alignByte = raise .unexpectedEndOfStream
      ((s.setPos (alignUp s.pos + 16)).setWork
        { s.work with lenField := BitVec.ofNat 16 (bitsLsb s.inMem (alignUp s.pos) 16) }) := by
  rw [readStoredLengths, readBits_of_le (by simpa using h), Res.bind_ok,
    readBits_of_gt (by decide) (by simpa using by omega), raise_bind]
  rfl

theorem readStoredLengths_of_le {s : State} (h : alignUp s.pos + 32 ≤ 8 * s.inLen) :
    readStoredLengths s.alignByte = .ok (bitsLsb s.inMem (alignUp s.pos) 16) s.withStoredLengths := by
  rw [readStoredLengths, readBits_of_le (by simpa using by omega), Res.bind_ok,
    readBits_of_le (by simpa using by omega), Res.bind_ok]
  rfl

end Machine

/-- Settles O26: the fields' reads are the three `readStoredLengths` lemmas, their comparison `complementOk_iff`. -/
theorem storedHeaderStep : Obligations.StoredHeaderStep := by
  intro f s hphase
  rw [exec_blockStored_of_stored f hphase, ruleStoredSetup]
  refine ⟨fun hnone => ?_, fun hlen hcut => ?_, fun hleft => ?_⟩
  · rw [readStoredLengths_of_none hnone]
    rfl
  · rw [readStoredLengths_of_len hlen hcut]
    rfl
  · rw [readStoredLengths_of_le hleft, Res.bind_ok]
    have hcomplement := complementOk_iff (bitsLsb_lt s.inMem (alignUp s.pos) 16)
      (bitsLsb_lt s.inMem (alignUp s.pos + 16) 16)
    dsimp only
    split
    next hok =>
      rw [if_pos (hcomplement.mp hok)]
      rfl
    next hok =>
      rw [if_neg (mt hcomplement.mpr hok)]
      rfl

/-! ## The raw byte and the end of a block -/

namespace Machine

theorem exec_raw (s : State) : exec .raw s = (ruleRaw s).toOutcome := rfl

theorem ruleRaw_of_zero {s : State} (h : s.rawRem = 0) : ruleRaw s = .ok () s.endOfBlock := if_pos h

theorem ruleRaw_of_gt {s : State} (h0 : s.rawRem ≠ 0) (h : 8 * s.inLen < s.pos + 8) :
    ruleRaw s = raise .unexpectedEndOfStream s := by
  rw [ruleRaw, if_neg h0, readBits_of_gt (by decide) h, raise_bind]

/-- The state after the byte `b` of a stored body, eight bits further on. -/
def State.withRawByte (s : State) (b : Byte) : State :=
  { (s.setPos (s.pos + 8)).outAppend b with rawRem := s.rawRem - 1 }

theorem ruleRaw_of_le {s : State} (h0 : s.rawRem ≠ 0) (h : s.pos + 8 ≤ 8 * s.inLen) :
    ruleRaw s = .ok () (s.withRawByte (BitVec.ofNat 8 (bitsLsb s.inMem s.pos 8))) := by
  rw [ruleRaw, if_neg h0, readBits_of_le h, Res.bind_ok]
  rfl

theorem exec_eob (s : State) : exec .eob s = .next s.endOfBlock := rfl

end Machine

/-- Settles O27: on an aligned cursor the eight bits are the byte (`bitsLsb_byte`), and the append is a memory write. -/
theorem rawByteOrBodyEnd : Obligations.RawByteOrBodyEnd := by
  intro s hmem
  obtain ⟨-, hout, -⟩ := hmem
  rw [exec_raw]
  refine ⟨fun hzero => ?_, fun hne haligned hleft => ?_, fun hne hcut => ?_⟩
  · rw [ruleRaw_of_zero hzero, Res.toOutcome_ok]
  · refine ⟨_, by rw [ruleRaw_of_le hne hleft, bitsLsb_byte haligned, BitVec.ofNat_toNat]; rfl, ?_, fun a ha => ?_, rfl⟩
    · exact (Memory.read_write _ _ _ hout).trans (if_pos rfl)
    · exact (Memory.read_write _ _ _ hout).trans (if_neg ha.symm)
  · rw [ruleRaw_of_gt hne hcut]
    rfl

/-- Settles O31. -/
theorem endOfBlockElement : Obligations.EndOfBlockElement := by
  intro s
  rw [exec_eob, State.endOfBlock]
  exact ⟨fun hfinal => by rw [if_pos hfinal], fun hother => by rw [hother]; rfl⟩

end Sys2Proof
end

section
/-! PROOFS. The dynamic setup step (44_block.md R210, R211): what it comes to is a function of the input and the cursor
alone, `dynamicSetupAt`; the core's step is shown to be that function, and every statement about the step reads it. -/

namespace Sys2Proof

namespace Machine

/-! ## Counts and meta lengths -/

/-- The first bit of the first count field that is cut off: HLIT, HDIST, then HCLEN (R210; 40_bitreader.md R132). -/
def cutCountAt (limit p : Nat) : Nat := if limit < p + 5 then p else if limit < p + 10 then p + 5 else p + 10

theorem readCounts_of_gt {s : State} (h : 8 * s.inLen < s.pos + 14) :
    Res.FailsAt s (readCounts s) .unexpectedEndOfStream (cutCountAt (8 * s.inLen) s.pos) := by
  unfold readCounts cutCountAt
  split
  next hlit => exact ⟨s.work, by rw [readBits_of_gt (by decide) hlit, raise_bind]; rfl⟩
  split
  · rw [readBits_of_le (by omega), Res.bind_ok, readBits_of_gt (by decide) (by simpa using by omega), raise_bind]
    exact ⟨_, rfl⟩
  · rw [readBits_of_le (by omega), Res.bind_ok, readBits_of_le (by simpa using by omega), Res.bind_ok,
      readBits_of_gt (by decide) (by simpa using by omega), raise_bind]
    exact ⟨_, rfl⟩

/-- The meta lengths `ml` with the symbols `syms` given the 3-bit fields from bit `p` on. -/
def setMetaLengths (m : Memory) : List Nat → Nat → List Nat → List Nat
  | [], _, ml => ml
  | sym :: syms, p, ml => setMetaLengths m syms (p + 3) (ml.set sym (bitsLsb m p 3))

theorem readMetaLengthsOf_of_le {syms : List Nat} {s : State} (h : s.pos + 3 * syms.length ≤ 8 * s.inLen) :
    readMetaLengthsOf syms s = .ok () ((s.setPos (s.pos + 3 * syms.length)).setWork
      { s.work with ml := setMetaLengths s.inMem syms s.pos s.work.ml }) := by
  induction syms generalizing s with
  | nil => rfl
  | cons sym syms ih =>
    rw [List.length_cons] at h ⊢
    rw [readMetaLengthsOf, readBits_of_le (by omega), Res.bind_ok, ih (by simpa using by omega)]
    have hpos : s.pos + 3 * (syms.length + 1) = s.pos + 3 + 3 * syms.length := by omega
    rw [hpos]
    rfl

/-- A field that is cut off, with `j` whole fields before it. -/
theorem readMetaLengthsOf_of_gt {syms : List Nat} {s : State} {j : Nat} (hj : j < syms.length)
    (hthere : j = 0 ∨ s.pos + 3 * j ≤ 8 * s.inLen) (hcut : 8 * s.inLen < s.pos + 3 * j + 3) :
    Res.FailsAt s (readMetaLengthsOf syms s) .unexpectedEndOfStream (s.pos + 3 * j) := by
  induction syms generalizing s j with
  | nil => simp at hj
  | cons sym syms ih =>
    rw [readMetaLengthsOf]
    cases j with
    | zero =>
      rw [readBits_of_gt (by decide) (by omega), raise_bind]
      exact ⟨s.work, rfl⟩
    | succ j =>
      have hle : s.pos + 3 ≤ 8 * s.inLen := by omega
      rw [readBits_of_le hle, Res.bind_ok]
      obtain ⟨w, hw⟩ := ih (j := j)
        (s := (s.setPos (s.pos + 3)).setWork { s.work with ml := s.work.ml.set sym (bitsLsb s.inMem s.pos 3) })
        (by simpa using hj) (by simp; omega) (by simp; omega)
      have hpos : s.pos + 3 * (j + 1) = s.pos + 3 + 3 * j := by omega
      rw [hpos]
      exact ⟨w, hw⟩

theorem setMetaLengths_length (m : Memory) (syms : List Nat) (p : Nat) (ml : List Nat) :
    (setMetaLengths m syms p ml).length = ml.length := by
  induction syms generalizing p ml with
  | nil => rfl
  | cons sym syms ih => rw [setMetaLengths, ih, List.length_set]

/-- A symbol of the list has the field at its place in the list, another symbol its old length. -/
theorem setMetaLengths_getElem (m : Memory) {syms : List Nat} (hnodup : syms.Nodup) (p : Nat) (ml : List Nat) (x : Nat)
    (hx : x < ml.length) :
    (setMetaLengths m syms p ml)[x]? = some (if x ∈ syms then bitsLsb m (p + 3 * syms.idxOf x) 3 else ml[x]) := by
  induction syms generalizing p ml with
  | nil => simp [setMetaLengths, hx]
  | cons sym syms ih =>
    obtain ⟨hnot, hnodup⟩ := List.nodup_cons.mp hnodup
    rw [setMetaLengths, ih hnodup _ _ (by simpa using hx)]
    by_cases hne : x = sym
    · subst hne
      simp [hnot]
    · have hidx : (sym :: syms).idxOf x = syms.idxOf x + 1 := by
        rw [List.idxOf_cons, beq_false_of_ne (Ne.symm hne), cond_false]
      have hpos : p + 3 + 3 * syms.idxOf x = p + 3 * (syms.idxOf x + 1) := by omega
      simp [hne, Ne.symm hne, hidx, hpos]

/-- The fields of a header, put where ORDER says (30_encoding.md R95). -/
theorem setMetaLengths_metaOrder (m : Memory) (p n : Nat) :
    setMetaLengths m (metaOrder.take n) p (List.replicate 19 0) = metaLengthsAt m p n := by
  have hnodup : metaOrder.Nodup := by decide
  have hall : ∀ x < 19, x ∈ metaOrder := by decide
  refine List.ext_getElem? fun x => ?_
  by_cases hx : x < 19
  · rw [setMetaLengths_getElem m (hnodup.sublist (List.take_sublist n metaOrder)) p _ x (by simpa using hx)]
    have htake : (metaOrder.take n).idxOf x = min n (metaOrder.idxOf x) := List.findIdx_take
    have hmem : x ∈ metaOrder.take n ↔ metaOrder.idxOf x < n := by
      have hlt := List.idxOf_lt_length_iff.mpr (hall x hx)
      rw [← List.idxOf_lt_length_iff, htake, List.length_take]
      omega
    simp only [metaLengthsAt, List.getElem?_map, List.getElem?_range hx, Option.map_some, List.getElem_replicate]
    by_cases h : x ∈ metaOrder.take n
    · rw [if_pos h, if_pos (hmem.mp h), htake, Nat.min_eq_right (Nat.le_of_lt (hmem.mp h))]
    · rw [if_neg h, if_neg (fun hlt => h (hmem.mpr hlt))]
  · rw [List.getElem?_eq_none (by simpa [setMetaLengths_length] using hx),
      List.getElem?_eq_none (by simpa [metaLengthsAt] using hx)]

theorem metaLengthsAt_length (m : Memory) (p n : Nat) : (metaLengthsAt m p n).length = 19 := by
  simp [metaLengthsAt]

/-! ## The step on the input alone -/

/-- The two tables of the lengths read, or the error of an over-subscribed array (R210; 41_huffman_build.md R154). -/
def bothTables (ll dl : List Nat) (p : Nat) : Except (ErrKind × Nat) (Table × Table × Nat) :=
  match build ll, build dl with
  | some L, some D => .ok (L, D, p)
  | _, _ => .error (.invalidCodeLengths, p)

/-- The second run of a dynamic header, from bit `q` on, and the tables of both. -/
def secondRunAt (M : Table) (m : Memory) (limit nd : Nat) (ll : List Nat) (q : Nat) :
    Except (ErrKind × Nat) (Table × Table × Nat) :=
  match expandRun M nd m limit nd [] q with
  | .error e => .error e
  | .ok (dl, e) => bothTables ll dl e

/-- The runs of a dynamic header by the meta table `M`, from bit `p` on, and their tables. -/
def dynamicRunsAt (M : Table) (m : Memory) (limit nl nd p : Nat) : Except (ErrKind × Nat) (Table × Table × Nat) :=
  match expandRun M nl m limit nl [] p with
  | .error e => .error e
  | .ok (ll, q) => secondRunAt M m limit nd ll q

/-- What follows the meta lengths `ml`, from bit `p` on: the meta table and by it the runs. -/
def afterMetaLengths (ml : List Nat) (m : Memory) (limit nl nd p : Nat) : Except (ErrKind × Nat) (Table × Table × Nat) :=
  match build ml with
  | none => .error (.invalidCodeLengths, p)
  | some M => dynamicRunsAt M m limit nl nd p

/-- The dynamic setup step from the cursor `p`: the two tables and the cursor after the header, or the error and its
place. -/
def dynamicSetupAt (m : Memory) (limit p : Nat) : Except (ErrKind × Nat) (Table × Table × Nat) :=
  let n := bitsLsb m (p + 10) 4 + 4
  if limit < p + 14 then .error (.unexpectedEndOfStream, cutCountAt limit p)
  else if limit < p + 14 + 3 * n then .error (.unexpectedEndOfStream, p + 14 + 3 * ((limit - (p + 14)) / 3))
  else
    afterMetaLengths (metaLengthsAt m (p + 14) n) m limit (bitsLsb m p 5 + 257) (bitsLsb m (p + 5) 5 + 1)
      (p + 14 + 3 * n)

/-! ## The core's step is that function -/

/-- What `dynamicSetupAt` says of the core's rule. -/
def Res.OfSetup (s : State) (r : Res Unit) : Except (ErrKind × Nat) (Table × Table × Nat) → Prop
  | .ok (L, D, p) => ∃ w, r = .ok () { (s.setPos p).setWork w with lt := L, dt := D, phase := .decoding }
  | .error (k, p) => Res.FailsAt s r k p

/-- The rules of the step after the runs: both arrays become tables. -/
def ruleTables (s : State) : Res Unit :=
  (buildTable s.work.ll s).bind fun L s => (buildTable s.work.dl s).bind fun D s =>
    .ok () { s with lt := L, dt := D, phase := .decoding }

theorem ruleDynamicSetup_eq (s : State) :
    ruleDynamicSetup s = (readCounts s).bind fun _ s => (readMetaLengths s).bind fun _ s =>
      (buildTable s.work.ml s).bind fun M s =>
        (readCodeLengths (s.setWork { s.work with metaTable := M })).bind fun _ s => ruleTables s := rfl

theorem Res.OfSetup.of_written {s : State} {r : Res Unit} {e : Except (ErrKind × Nat) (Table × Table × Nat)} (p : Nat)
    (w : Work) (h : Res.OfSetup ((s.setPos p).setWork w) r e) : Res.OfSetup s r e := by
  cases e with
  | ok x => exact h
  | error x => exact h

theorem ruleTables_ofSetup (s : State) : Res.OfSetup s (ruleTables s) (bothTables s.work.ll s.work.dl s.pos) := by
  unfold bothTables ruleTables buildTable
  cases hll : build s.work.ll with
  | none => exact ⟨s.work, rfl⟩
  | some L =>
    rw [Res.bind_ok]
    cases hdl : build s.work.dl with
    | none => exact ⟨s.work, rfl⟩
    | some D => exact ⟨s.work, rfl⟩

theorem secondRun_ofSetup {s : State} (hM : Table.fits s.work.metaTable 19 = true) :
    Res.OfSetup s (((rle s.work.metaTable (s.work.hdist + 1) s).bind fun dl s =>
        .ok () (s.setWork { s.work with dl := dl })).bind fun _ s => ruleTables s)
      (secondRunAt s.work.metaTable s.inMem (8 * s.inLen) (s.work.hdist + 1) s.work.ll s.pos) := by
  unfold secondRunAt
  have hrun := rle_ofRun (s.work.hdist + 1) s hM
  cases hdl : expandRun s.work.metaTable (s.work.hdist + 1) s.inMem (8 * s.inLen) (s.work.hdist + 1) [] s.pos with
  | error e =>
    rw [hdl] at hrun
    exact (Res.FailsAt.bind hrun _).bind _
  | ok x =>
    obtain ⟨dl, q⟩ := x
    rw [hdl] at hrun
    obtain ⟨v, c, hrle⟩ := hrun
    rw [hrle]
    exact Res.OfSetup.of_written q { s.work with hval := v, hcnt := c, arr := dl, dl := dl } (ruleTables_ofSetup _)

/-- From the meta table on: the two runs, each a run on the input, and the tables. -/
theorem readCodeLengths_ofSetup {s : State} (hM : Table.fits s.work.metaTable 19 = true) :
    Res.OfSetup s ((readCodeLengths s).bind fun _ s => ruleTables s)
      (dynamicRunsAt s.work.metaTable s.inMem (8 * s.inLen) (s.work.hlit + 257) (s.work.hdist + 1) s.pos) := by
  unfold dynamicRunsAt readCodeLengths
  have hrun := rle_ofRun (s.work.hlit + 257) s hM
  cases hll : expandRun s.work.metaTable (s.work.hlit + 257) s.inMem (8 * s.inLen) (s.work.hlit + 257) [] s.pos with
  | error e =>
    rw [hll] at hrun
    exact (Res.FailsAt.bind hrun _).bind _
  | ok x =>
    obtain ⟨ll, p⟩ := x
    rw [hll] at hrun
    obtain ⟨v, c, hrle⟩ := hrun
    rw [hrle]
    exact Res.OfSetup.of_written p { s.work with hval := v, hcnt := c, arr := ll, ll := ll } (secondRun_ofSetup hM)

/-- The meta table is of the meta-alphabet, so that the runs by it meet no other symbol (30_encoding.md R101). -/
theorem afterMetaLengths_ofSetup {s : State} (hml : s.work.ml.length = 19) :
    Res.OfSetup s ((buildTable s.work.ml s).bind fun M s =>
        (readCodeLengths (s.setWork { s.work with metaTable := M })).bind fun _ s => ruleTables s)
      (afterMetaLengths s.work.ml s.inMem (8 * s.inLen) (s.work.hlit + 257) (s.work.hdist + 1) s.pos) := by
  unfold afterMetaLengths buildTable
  cases hM : build s.work.ml with
  | none => exact ⟨s.work, rfl⟩
  | some M =>
    exact Res.OfSetup.of_written s.pos { s.work with metaTable := M } (readCodeLengths_ofSetup (hml ▸ build_fits hM))

theorem hclen_add_four_le (m : Memory) (p : Nat) : bitsLsb m p 4 + 4 ≤ 19 := by
  have := bitsLsb_lt m p 4
  omega

theorem metaOrder_take_length {n : Nat} (h : n ≤ 19) : (metaOrder.take n).length = n := by
  rw [List.length_take]
  exact Nat.min_eq_left h

/-- The meta lengths of a header whose counts have been read: all there, or the first that is cut off. -/
theorem readMetaLengths_of_le {s : State} (h : s.pos + 3 * (s.work.hclen + 4) ≤ 8 * s.inLen)
    (hn : s.work.hclen + 4 ≤ 19) :
    readMetaLengths s = .ok () ((s.setPos (s.pos + 3 * (s.work.hclen + 4))).setWork
      { s.work with ml := metaLengthsAt s.inMem s.pos (s.work.hclen + 4) }) := by
  have hlen := metaOrder_take_length hn
  rw [readMetaLengths, readMetaLengthsOf_of_le (by rw [hlen]; exact h), hlen, ← setMetaLengths_metaOrder]
  rfl

theorem readMetaLengths_of_gt {s : State} {j : Nat} (hj : j < s.work.hclen + 4) (hn : s.work.hclen + 4 ≤ 19)
    (hthere : s.pos + 3 * j ≤ 8 * s.inLen) (hcut : 8 * s.inLen < s.pos + 3 * j + 3) :
    Res.FailsAt s (readMetaLengths s) .unexpectedEndOfStream (s.pos + 3 * j) :=
  readMetaLengthsOf_of_gt (s := s.setWork { s.work with ml := List.replicate 19 0 })
    (by rw [metaOrder_take_length hn]; exact hj) (.inr hthere) hcut

/-- The core's rule is `dynamicSetupAt`. -/
theorem ruleDynamicSetup_ofSetup (s : State) :
    Res.OfSetup s (ruleDynamicSetup s) (dynamicSetupAt s.inMem (8 * s.inLen) s.pos) := by
  have hn := hclen_add_four_le s.inMem (s.pos + 10)
  rw [ruleDynamicSetup_eq]
  unfold dynamicSetupAt
  dsimp only
  split
  next hcounts => exact (readCounts_of_gt hcounts).bind _
  split
  · rw [readCounts_of_le (by omega), Res.bind_ok]
    exact Res.FailsAt.bind (Res.FailsAt.of_written (q := s.pos + 14) (w := s.withCounts.work)
      (readMetaLengths_of_gt (s := s.withCounts) (j := (8 * s.inLen - (s.pos + 14)) / 3)
        (by simp only [State.withCounts]; omega) hn (by simp; omega) (by simp; omega))) _
  · rw [readCounts_of_le (by omega), Res.bind_ok, readMetaLengths_of_le (by simp [State.withCounts]; omega) hn,
      Res.bind_ok]
    exact Res.OfSetup.of_written (s.pos + 14 + 3 * (bitsLsb s.inMem (s.pos + 10) 4 + 4))
      { s.withCounts.work with ml := metaLengthsAt s.inMem (s.pos + 14) (bitsLsb s.inMem (s.pos + 10) 4 + 4) }
      (afterMetaLengths_ofSetup (metaLengthsAt_length _ _ _))

theorem exec_blockDynamic_of_dynamicTables (f : Bool) {s : State} (h : s.phase = .dynamicTables) :
    exec (.blockDynamic f) s = (ruleDynamicSetup s).toOutcome := if_pos h

theorem exec_dynamicSetup_of_ok (f : Bool) {s : State} (hphase : s.phase = .dynamicTables) {L D : Table} {p : Nat}
    (h : dynamicSetupAt s.inMem (8 * s.inLen) s.pos = .ok (L, D, p)) :
    ∃ t, exec (.blockDynamic f) s = .next t ∧
      t = { s with pos := p, lt := L, dt := D, phase := .decoding, work := t.work } := by
  have hrule := ruleDynamicSetup_ofSetup s
  rw [h] at hrule
  obtain ⟨w, hrule⟩ := hrule
  exact ⟨_, by rw [exec_blockDynamic_of_dynamicTables f hphase, hrule, Res.toOutcome_ok], rfl⟩

theorem exec_dynamicSetup_of_error (f : Bool) {s : State} (hphase : s.phase = .dynamicTables) {k : ErrKind} {p : Nat}
    (h : dynamicSetupAt s.inMem (8 * s.inLen) s.pos = .error (k, p)) :
    ∃ t, exec (.blockDynamic f) s = .next t ∧ t = { s.failedAt k p with work := t.work } := by
  have hrule := ruleDynamicSetup_ofSetup s
  rw [h] at hrule
  obtain ⟨w, hrule⟩ := Res.FailsAt.next hrule
  exact ⟨_, by rw [exec_blockDynamic_of_dynamicTables f hphase, hrule], rfl⟩

/-! ## What `dynamicSetupAt` comes to -/

variable {m : Memory} {limit p : Nat} {M : Table} {nl nd : Nat}

theorem bothTables_of_none {ll dl : List Nat} (h : build ll = none ∨ build dl = none) (q : Nat) :
    bothTables ll dl q = .error (.invalidCodeLengths, q) := by
  unfold bothTables
  split
  · rename_i hL hD
    simp [hL, hD] at h
  · rfl

theorem dynamicSetupAt_of_counts (h : limit < p + 14) :
    dynamicSetupAt m limit p = .error (.unexpectedEndOfStream, cutCountAt limit p) := if_pos h

/-- The field at which the input ends is the one with its first bit inside and its last bit beyond. -/
theorem dynamicSetupAt_of_field {j : Nat} (hj : j < bitsLsb m (p + 10) 4 + 4) (hthere : p + 14 + 3 * j ≤ limit)
    (hcut : limit < p + 14 + 3 * j + 3) :
    dynamicSetupAt m limit p = .error (.unexpectedEndOfStream, p + 14 + 3 * j) := by
  have hfield : (limit - (p + 14)) / 3 = j := by omega
  unfold dynamicSetupAt
  rw [if_neg (by omega), if_pos (by omega), hfield]

theorem dynamicSetupAt_of_le (h : p + 14 + 3 * (bitsLsb m (p + 10) 4 + 4) ≤ limit) :
    dynamicSetupAt m limit p = afterMetaLengths (metaLengthsAt m (p + 14) (bitsLsb m (p + 10) 4 + 4)) m limit
      (bitsLsb m p 5 + 257) (bitsLsb m (p + 5) 5 + 1) (p + 14 + 3 * (bitsLsb m (p + 10) 4 + 4)) := by
  unfold dynamicSetupAt
  rw [if_neg (by omega), if_neg (by omega)]

end Machine

open Machine

/-- Settles O29: with every field there and both runs going through, `dynamicSetupAt` is the two tables. -/
theorem dynamicSetupCompletes : Obligations.DynamicSetupCompletes := by
  refine ⟨rfl, fun f s M L D ll dl p q hphase hleft hM hll hdl hL hD => ?_⟩
  refine exec_dynamicSetup_of_ok f hphase ?_
  simp only [dynamicSetupAt_of_le hleft, afterMetaLengths, hM, dynamicRunsAt, hll, secondRunAt, hdl, bothTables, hL, hD]

/-- Settles O30: each way to go wrong is a branch of `dynamicSetupAt`. -/
theorem dynamicSetupRejects : Obligations.DynamicSetupRejects := by
  intro f s n hphase hn
  subst hn
  refine ⟨fun p hcut => exec_dynamicSetup_of_error f hphase ?_, fun hleft => ⟨fun hM => ?_, fun M hM => ⟨fun k e hll => ?_,
    fun ll p hll => ⟨fun k e hdl => ?_, fun dl q hdl hnone => ?_⟩⟩⟩⟩
  · obtain ⟨rfl, h⟩ | ⟨rfl, h, h'⟩ | ⟨rfl, h, h'⟩ | ⟨j, hj, rfl, h, h'⟩ := hcut
    · rw [dynamicSetupAt_of_counts (by omega), cutCountAt, if_pos h]
    · rw [dynamicSetupAt_of_counts (by omega), cutCountAt, if_neg (by omega), if_pos (by omega)]
    · rw [dynamicSetupAt_of_counts (by omega), cutCountAt, if_neg (by omega), if_neg (by omega)]
    · exact dynamicSetupAt_of_field hj h h'
  · refine exec_dynamicSetup_of_error f hphase ?_
    simp only [dynamicSetupAt_of_le hleft, afterMetaLengths, hM]
  · refine exec_dynamicSetup_of_error f hphase ?_
    simp only [dynamicSetupAt_of_le hleft, afterMetaLengths, hM, dynamicRunsAt, hll]
  · refine exec_dynamicSetup_of_error f hphase ?_
    simp only [dynamicSetupAt_of_le hleft, afterMetaLengths, hM, dynamicRunsAt, hll, secondRunAt, hdl]
  · refine exec_dynamicSetup_of_error f hphase ?_
    simp only [dynamicSetupAt_of_le hleft, afterMetaLengths, hM, dynamicRunsAt, hll, secondRunAt, hdl,
      bothTables_of_none hnone]

end Sys2Proof
end

section
/-! PROOFS. The inflator (45_inflate.md): literals, matches with their two halves, and the copy. -/

namespace Sys2Proof

namespace Machine

/-! ## The copy -/

/-- A copy writes the `n` bytes from `out_count` up and no other byte of the output. -/
theorem copyBytes_read_other {dist n a : Nat} {s : State} (hout : Memory.wf s.out = true)
    (ha : a < s.outCount ∨ s.outCount + n ≤ a) :
    Memory.read (copyBytes dist n s).out a = Memory.read s.out a := by
  induction n generalizing s with
  | zero => rfl
  | succ n ih =>
    rw [copyBytes, ih (Memory.wf_write _ _ hout) (by rw [State.outAppend_outCount]; omega), State.outAppend_out,
      Memory.read_write _ _ _ hout, if_neg (by omega)]

/-- Byte `i` of a copy is the byte `dist` before it (R237). -/
theorem copyBytes_read {dist n i : Nat} {s : State} (hout : Memory.wf s.out = true) (h1 : 1 ≤ dist)
    (hdist : dist ≤ s.outCount) (hi : i < n) :
    Memory.read (copyBytes dist n s).out (s.outCount + i) =
      Memory.read (copyBytes dist n s).out (s.outCount + i - dist) := by
  induction n generalizing s i with
  | zero => omega
  | succ n ih =>
    have hout' : Memory.wf (s.outAppend (s.backRead dist)).out = true := Memory.wf_write _ _ hout
    rw [copyBytes]
    cases i with
    | zero =>
      rw [Nat.add_zero, copyBytes_read_other hout' (.inl (by rw [State.outAppend_outCount]; omega)),
        copyBytes_read_other hout' (.inl (by rw [State.outAppend_outCount]; omega)), State.outAppend_out,
        Memory.read_write _ _ _ hout, Memory.read_write _ _ _ hout, if_pos rfl, if_neg (by omega)]
      rfl
    | succ i =>
      have hnext := ih (s := s.outAppend (s.backRead dist)) hout' (by rw [State.outAppend_outCount]; omega)
        (Nat.lt_of_succ_lt_succ hi)
      rwa [State.outAppend_outCount, Nat.add_assoc, Nat.add_comm 1 i] at hnext

/-- A copy repeats the last `dist` bytes (R237). -/
theorem copyBytes_read_mod {dist n i : Nat} {s : State} (hout : Memory.wf s.out = true) (h1 : 1 ≤ dist)
    (hdist : dist ≤ s.outCount) (hi : i < n) :
    Memory.read (copyBytes dist n s).out (s.outCount + i) = Memory.read s.out (s.outCount - dist + i % dist) := by
  induction i using Nat.strongRecOn with
  | ind i ih =>
    rw [copyBytes_read hout h1 hdist hi]
    obtain hlt | hge := Nat.lt_or_ge i dist
    · rw [copyBytes_read_other hout (.inl (by omega)), Nat.mod_eq_of_lt hlt]
      congr 1
      omega
    · have hback : s.outCount + i - dist = s.outCount + (i - dist) := by omega
      rw [hback, ih (i - dist) (by omega) (by omega), Nat.mod_eq_sub_mod hge]

end Machine

open Machine

/-- Settles O36. -/
theorem copyRepeatsLastBytes : Obligations.CopyRepeatsLastBytes := by
  intro dist len s hmem h1 hdist
  obtain ⟨-, hout, -⟩ := hmem
  exact ⟨copyBytes_outCount dist len s, fun i hi => copyBytes_read hout h1 hdist hi,
    fun i hi => copyBytes_read_mod hout h1 hdist hi, fun a ha => copyBytes_read_other hout (.inl ha)⟩

/-- Settles O32: an append is one write of each memory. -/
theorem literalAppends : Obligations.LiteralAppends := by
  intro b s hmem
  obtain ⟨-, hout, hwin, -⟩ := hmem
  refine ⟨s.outAppend b, rfl, ?_, fun a ha => ?_, ?_, fun a ha => ?_, rfl⟩
  · exact (Memory.read_write _ _ _ hout).trans (if_pos rfl)
  · exact (Memory.read_write _ _ _ hout).trans (if_neg ha.symm)
  · exact (Memory.read_write _ _ _ hwin).trans (if_pos rfl)
  · exact (Memory.read_write _ _ _ hwin).trans (if_neg ha.symm)

/-! ## The operand tables -/

theorem lengthBase_range : ∀ k : Fin 29,
    3 ≤ lengthBase (257 + k) ∧ lengthBase (257 + k) + 2 ^ lengthExtra (257 + k) ≤ 259 := by
  decide +kernel

theorem distBase_range : ∀ d : Fin 30, 1 ≤ distBase d ∧ distBase d + 2 ^ distExtra d ≤ 32769 := by decide +kernel

/-- Settles O39: the rows are the tables' own; the ranges hold row by row, for the largest value of the extra bits. -/
theorem operandRanges : Obligations.OperandRanges := by
  refine ⟨by decide +kernel, by decide +kernel, fun sym x hlow hhigh hx => ?_, fun d x hd hx => ?_⟩
  · obtain ⟨k, rfl⟩ : ∃ k, sym = 257 + k := ⟨sym - 257, by omega⟩
    have hrow := lengthBase_range ⟨k, by omega⟩
    dsimp only at hrow
    omega
  · have hrow := distBase_range ⟨d, hd⟩
    dsimp only at hrow
    omega

namespace Machine

/-! ## The two halves of a match -/

/-- The length elements in order run the match of their symbols. -/
theorem exec_lengthElements (s : State) :
    ((litLenElements.drop 1).take 29).map (exec · s) =
      (List.range 29).map fun k => (ruleMatch (257 + k) s).toOutcome := rfl

/-- The distance elements in order run the rule of their symbols. -/
theorem exec_distElements (s : State) :
    distElements.map (exec · s) = (List.range 32).map fun d => (ruleDistSym d s).toOutcome := rfl

/-- A length element runs the match of its symbol. -/
theorem exec_of_length {sym : Nat} {i : Instr} (hlow : 257 ≤ sym) (hhigh : sym ≤ 285)
    (hi : decodeNumber .llsym sym = some i) (s : State) : exec i s = (ruleMatch sym s).toOutcome := by
  obtain ⟨k, rfl⟩ : ∃ k, sym = 257 + k := ⟨sym - 257, by omega⟩
  have hget : ((litLenElements.drop 1).take 29)[k]? = some i := by
    rw [List.getElem?_take_of_lt (by omega), List.getElem?_drop, ← hi, decodeNumber, if_neg (by omega),
      show 257 + k - 256 = 1 + k by omega]
  have hrow := congrArg (·[k]?) (exec_lengthElements s)
  simp only [List.getElem?_map, hget, List.getElem?_range (show k < 29 by omega), Option.map_some] at hrow
  exact Option.some.inj hrow

/-- A distance element runs the rule of its symbol. -/
theorem exec_of_dsym {d : Nat} {j : Instr} (hj : decodeNumber .dsym d = some j) (s : State) :
    exec j s = (ruleDistSym d s).toOutcome := by
  have hd : d < 32 := (List.getElem?_eq_some_iff.mp hj).1
  have hrow := congrArg (·[d]?) (exec_distElements s)
  simp only [List.getElem?_map, show distElements[d]? = some j from hj, List.getElem?_range hd, Option.map_some] at hrow
  exact Option.some.inj hrow

theorem ruleDistSym_of_lt {d : Nat} (h : d < 30) (s : State) : ruleDistSym d s = ruleDist d s :=
  if_neg (Nat.not_le.mpr h)

theorem ruleDistSym_of_ge {d : Nat} (h : 30 ≤ d) (s : State) : ruleDistSym d s = raise .invalidSymbol s := if_pos h

variable {s : State} {d sym : Nat} {r : Reader}

theorem ruleDist_of_cut (h0 : distExtra d ≠ 0) (h : 8 * s.inLen < s.pos + distExtra d) :
    ruleDist d s = raise .unexpectedEndOfStream s := by
  rw [ruleDist, readDistance_of_gt h0 h, raise_bind]

theorem ruleDist_of_far (h : distExtra d = 0 ∨ s.pos + distExtra d ≤ 8 * s.inLen)
    (hfar : s.outCount < distBase d + bitsLsb s.inMem s.pos (distExtra d)) :
    ruleDist d s = raise .invalidBackReference (s.withDistance d) := by
  rw [ruleDist, readDistance_of_there h, Res.bind_ok, ruleCopy_of_gt hfar]

theorem ruleDist_of_le (h : distExtra d = 0 ∨ s.pos + distExtra d ≤ 8 * s.inLen)
    (hnear : distBase d + bitsLsb s.inMem s.pos (distExtra d) ≤ s.outCount) :
    ruleDist d s = .ok () (copyBytes (distBase d + bitsLsb s.inMem s.pos (distExtra d)) s.work.len
      (s.withDistance d)) := by
  rw [ruleDist, readDistance_of_there h, Res.bind_ok, ruleCopy_of_le hnear]
  rfl

theorem ruleMatch_of_cut (h0 : lengthExtra sym ≠ 0) (h : 8 * s.inLen < s.pos + lengthExtra sym) :
    ruleMatch sym s = raise .unexpectedEndOfStream s := by
  rw [ruleMatch, readLength_of_gt h0 h, raise_bind]

theorem ruleMatch_of_error (h : lengthExtra sym = 0 ∨ s.pos + lengthExtra sym ≤ 8 * s.inLen)
    (hd : decodeSymAt s.dt s.inMem (8 * s.inLen) (s.pos + lengthExtra sym) = .error r) :
    ruleMatch sym s = raise .unexpectedEndOfStream ((s.withLength sym).setReader r) := by
  rw [ruleMatch, readLength_of_there h, Res.bind_ok, readDistSymbol_of_error hd, raise_bind]

/-- With length and distance code read, a match is the rule of its distance symbol. -/
theorem ruleMatch_of_ok (h : lengthExtra sym = 0 ∨ s.pos + lengthExtra sym ≤ 8 * s.inLen)
    (hd : decodeSymAt s.dt s.inMem (8 * s.inLen) (s.pos + lengthExtra sym) = .ok (d, r)) :
    ruleMatch sym s = ruleDistSym d ((s.withLength sym).withDistSymbol d r) := by
  rw [ruleMatch, readLength_of_there h, Res.bind_ok, readDistSymbol_of_ok hd, Res.bind_ok]

theorem distBase_pos (hd : d < 30) : 1 ≤ distBase d := (distBase_range ⟨d, hd⟩).1

end Machine

/-- Settles O37. -/
theorem matchRunsDistanceElement : Obligations.MatchRunsDistanceElement := by
  intro sym d i j r s hlow hhigh hi hleft hd hj
  rw [exec_of_length hlow hhigh hi, ruleMatch_of_ok (.inr hleft) hd, exec_of_dsym hj]
  rfl

/-- Settles O35: the three ways a distance element can go are the three `ruleDist` lemmas. -/
theorem distanceElementCopies : Obligations.DistanceElementCopies := by
  intro d i s hd hi hmem
  obtain ⟨-, hout, -⟩ := hmem
  rw [exec_of_dsym hi, ruleDistSym_of_lt hd]
  refine ⟨fun h0 hcut => ?_, fun hthere hfar => ?_, fun hthere hnear => ?_⟩
  · rw [ruleDist_of_cut h0 hcut]
    rfl
  · rw [ruleDist_of_far hthere hfar]
    rfl
  · have h1 := distBase_pos hd
    rw [ruleDist_of_le hthere hnear]
    refine ⟨_, rfl, fun k hk => copyBytes_read (s := s.withDistance d) hout (by omega) hnear hk,
      fun a ha => copyBytes_read_other (s := s.withDistance d) hout ha, ?_⟩
    rw [copyBytes_frame, copyBytes_outCount]
    rfl

/-- Settles O33: the copy of the match's distance element, on the state that both halves' operands leave. -/
theorem matchCompletes : Obligations.MatchCompletes := by
  intro sym d i r s hlow hhigh hi hmem hleft hsym hd hextra hnear
  obtain ⟨-, hout, -⟩ := hmem
  have h1 := distBase_pos hd
  rw [exec_of_length hlow hhigh hi, ruleMatch_of_ok (.inr hleft) hsym, ruleDistSym_of_lt hd,
    ruleDist_of_le (s := (s.withLength sym).withDistSymbol d r) (.inr hextra) hnear]
  refine ⟨_, rfl,
    fun k hk => copyBytes_read (s := ((s.withLength sym).withDistSymbol d r).withDistance d) hout
      (Nat.le_add_right_of_le h1) hnear hk,
    fun a ha => copyBytes_read_other (s := ((s.withLength sym).withDistSymbol d r).withDistance d) hout ha, ?_⟩
  rw [copyBytes_frame, copyBytes_outCount]
  rfl

/-- Settles O34: in the order of the reads, the three `ruleMatch` lemmas, then those of the distance element. -/
theorem matchErrorsInOrder : Obligations.MatchErrorsInOrder := by
  intro sym i s hlow hhigh hi
  rw [exec_of_length hlow hhigh hi]
  refine ⟨fun h0 hcut => ?_, fun hthere => ⟨fun r hsym => ?_, fun d r hsym => ?_⟩⟩
  · rw [ruleMatch_of_cut h0 hcut]
    rfl
  · have hend : r.pos = max s.pos (8 * s.inLen) := by
      have := decodeSymAt_error hsym
      omega
    rw [ruleMatch_of_error hthere hsym, ← hend]
    exact ⟨_, rfl, rfl⟩
  · rw [ruleMatch_of_ok hthere hsym]
    obtain hd | hd := Nat.lt_or_ge d 30
    · rw [ruleDistSym_of_lt hd]
      obtain hcut | hextra := Nat.lt_or_ge (8 * s.inLen) (r.pos + distExtra d)
      · by_cases h0 : distExtra d = 0
        · have := (decodeSymAt_ok hsym).2.1
          omega
        · rw [ruleDist_of_cut h0 hcut]
          exact ⟨_, rfl, fun h => by omega, fun _ _ => rfl, fun _ h => by omega⟩
      · obtain hfar | hnear := Nat.lt_or_ge s.outCount (distBase d + bitsLsb s.inMem r.pos (distExtra d))
        · rw [ruleDist_of_far (s := (s.withLength sym).withDistSymbol d r) (.inr hextra) hfar]
          exact ⟨_, rfl, fun h => by omega, fun _ h => by omega, fun _ _ _ => rfl⟩
        · rw [ruleDist_of_le (s := (s.withLength sym).withDistSymbol d r) (.inr hextra) hnear]
          exact ⟨_, rfl, fun h => by omega, fun _ h => by omega, fun _ _ h => by omega⟩
    · rw [ruleDistSym_of_ge hd]
      exact ⟨_, rfl, fun _ => rfl, fun h => by omega, fun h => by omega⟩

/-- Settles O38: the rule of each is `raise`, at the cursor just after the symbol's code. -/
theorem reservedSymbolsRaise : Obligations.ReservedSymbolsRaise := by
  rintro i s (rfl | rfl | rfl | rfl)
  · exact congrArg Host.Outcome.next (State.raise_eq_failedAt s .invalidSymbol)
  · exact congrArg Host.Outcome.next (State.raise_eq_failedAt s .invalidSymbol)
  · exact congrArg Host.Outcome.next (State.raise_eq_failedAt s .invalidSymbol)
  · exact congrArg Host.Outcome.next (State.raise_eq_failedAt s .invalidSymbol)

end Sys2Proof
end

section
/-! PROOFS. The step of each phase (44_block.md R200): which instruction it runs, and from which state. -/

namespace Sys2Proof

namespace Machine

variable {s : State}

/-! ## What each phase runs -/

theorem step_of_stored (hq : s.quiet) (h : s.phase = .stored) : step s = exec (.blockStored s.bfinal) s := by
  rw [step_of_quiet hq, fetch, h]; rfl

theorem step_of_fixedTables (hq : s.quiet) (h : s.phase = .fixedTables) : step s = exec (.blockFixed s.bfinal) s := by
  rw [step_of_quiet hq, fetch, h]; rfl

theorem step_of_dynamicTables (hq : s.quiet) (h : s.phase = .dynamicTables) :
    step s = exec (.blockDynamic s.bfinal) s := by
  rw [step_of_quiet hq, fetch, h]; rfl

theorem step_of_raw (hq : s.quiet) (h : s.phase = .decoding) (hraw : s.btype = 0) : step s = exec .raw s := by
  rw [step_of_quiet hq, fetch, h]
  simp [State.rawMode, hraw]

theorem step_of_huffman (hq : s.quiet) (h : s.phase = .decoding) (hmode : s.btype = 1 ∨ s.btype = 2) :
    step s = (fetchSymbol s).thenStep exec := by
  rw [step_of_quiet hq, fetch, h]
  obtain hmode | hmode := hmode <;> simp [State.rawMode, State.huffmanMode, hmode]

theorem step_of_ended (hq : s.quiet) (h : s.phase = .idle ∨ s.phase = .done ∨ s.phase = .failed) :
    step s = .fault (.noStep s.phase) := by
  rw [step_of_quiet hq, fetch]
  obtain h | h | h := h <;> rw [h] <;> rfl

theorem step_of_reserved (hq : s.quiet) (h : s.phase = .decoding) (hmode : s.btype = 3) :
    step s = .fault (.noStep .decoding) := by
  rw [step_of_quiet hq, fetch, h]
  simp [State.rawMode, State.huffmanMode, hmode]

/-- A block type is one of the four (44_block.md R201). -/
theorem btype_cases (b : BitVec 2) : b = 0 ∨ (b = 1 ∨ b = 2) ∨ b = 3 := by
  revert b; decide

/-! ## The symbol step's fetch -/

/-- The state after the code of the literal/length symbol `n` (45_inflate.md R231). -/
def State.withSymbol (s : State) (n : Nat) (r : Reader) : State :=
  (s.setPos r.pos).setWork { s.work with hval := r.hval, hcnt := r.hcnt, sym := n }

theorem fetchSymbol_of_error {r : Reader} (h : decodeSymAt s.lt s.inMem (8 * s.inLen) s.pos = .error r) :
    fetchSymbol s = raise .unexpectedEndOfStream (s.setReader r) := by
  rw [fetchSymbol, decodeSym_of_error h, raise_bind]

theorem fetchSymbol_of_ok {n : Nat} {r : Reader} {i : Instr}
    (h : decodeSymAt s.lt s.inMem (8 * s.inLen) s.pos = .ok (n, r)) (hi : decodeNumber .llsym n = some i) :
    fetchSymbol s = .ok i (s.withSymbol n r) := by
  rw [fetchSymbol, decodeSym_of_ok h, Res.bind_ok, hi]
  rfl

theorem fetchSymbol_of_none {n : Nat} {r : Reader}
    (h : decodeSymAt s.lt s.inMem (8 * s.inLen) s.pos = .ok (n, r)) (hi : decodeNumber .llsym n = none) :
    fetchSymbol s = .stop (.fault (.noElement .llsym n)) := by
  rw [fetchSymbol, decodeSym_of_ok h, Res.bind_ok, hi]

/-! ## The step and the decoder -/

theorem decodeNumber_of_decodeOpcode {f : Format} {n p q : Nat} {i : Instr}
    (h : ((decodeOpcode f n).map fun i => (i, p)) = .ok (i, q)) : decodeNumber f n = some i ∧ p = q := by
  unfold decodeOpcode at h
  split at h
  · rename_i j hj
    simp only [Except.map, Except.ok.injEq, Prod.mk.injEq] at h
    exact ⟨h.1 ▸ hj, h.2⟩
  · simp [Except.map] at h

theorem number_of_decodeNumber {f : Format} (hf : f ≠ .raw) {n : Nat} {i : Instr} (h : decodeNumber f n = some i) :
    i.number = n := by
  obtain ⟨-, hnone⟩ | ⟨j, -, hj, -, hnumber, -⟩ := decodeNumber_cases hf n
  · simp [hnone] at h
  · rw [hj, Option.some.injEq] at h
    exact h ▸ hnumber

/-- A header that decodes is the one the header step fetches. -/
theorem fetchHeader_of_decode {i : Instr} {p : Nat} (h : decode .blkhdr [] s.inMem (8 * s.inLen) s.pos = .ok (i, p)) :
    p = s.pos + 3 ∧ fetchHeader s = .ok i (s.withHeader i.number) := by
  rw [decode] at h
  split at h
  · cases h
  next hcut =>
  obtain ⟨hi, rfl⟩ := decodeNumber_of_decodeOpcode h
  have hn := number_of_decodeNumber (by decide) hi
  exact ⟨rfl, fetchHeader_of_le (Nat.not_lt.mp hcut) hn (hn ▸ hi)⟩

/-- A body element that decodes is the one the symbol step fetches. -/
theorem fetchSymbol_of_decode {i : Instr} {p : Nat} (h : decode .llsym s.lt s.inMem (8 * s.inLen) s.pos = .ok (i, p)) :
    ∃ r, r.pos = p ∧ r.hcnt = p - s.pos ∧ fetchSymbol s = .ok i (s.withSymbol i.number r) := by
  cases hsym : decodeSymAt s.lt s.inMem (8 * s.inLen) s.pos with
  | error r => simp [decode, hsym] at h
  | ok x =>
    obtain ⟨n, r⟩ := x
    rw [decode_of_symbol (by decide) (by decide) hsym] at h
    obtain ⟨hi, hp⟩ := decodeNumber_of_decodeOpcode h
    obtain ⟨-, -, hcount, -⟩ := decodeSymAt_ok hsym
    have hn := number_of_decodeNumber (by decide) hi
    exact ⟨r, hp, by omega, hn ▸ fetchSymbol_of_ok hsym (hn ▸ hi)⟩

end Machine

open Machine

/-- Settles O40. -/
theorem terminalPhasesHaveNoStep : Obligations.TerminalPhasesHaveNoStep := fun _ hq hphase => step_of_ended hq hphase

/-- Settles O60: what each phase runs, and for the two fetches that read bits what they fetch where the bits decode. -/
theorem stepRunsDecodedInstruction : Obligations.StepRunsDecodedInstruction := by
  intro s hq
  refine ⟨fun i p hphase hdecode => ?_, fun i p hphase hmode hdecode => ?_, step_of_raw hq, step_of_stored hq,
    step_of_fixedTables hq, step_of_dynamicTables hq⟩
  · obtain ⟨rfl, hfetch⟩ := fetchHeader_of_decode hdecode
    rw [step_of_awaitingHeader hq hphase, hfetch]
    rfl
  · obtain ⟨r, hpos, hcount, hfetch⟩ := fetchSymbol_of_decode hdecode
    refine ⟨r.hval, ?_⟩
    rw [step_of_huffman hq hphase hmode, hfetch, Res.thenStep_ok, State.withSymbol, hpos, hcount]
    rfl

end Sys2Proof
end

section
/-! PROOFS. What a step can do, said once: `Move` lists the ways a step of a run changes the state, and `step_move` reads
each of them off the rule of its phase. A match, like the dynamic setup, is first reduced to a function of the input. -/

namespace Sys2Proof

namespace Machine

/-! ## A match on the input alone -/

/-- The second half of a match, its distance symbol `d` just read (45_inflate.md R234, R236): distance and cursor after
it, or the error and its place. `c` is `out_count`. -/
def distanceAt (m : Memory) (limit c d p : Nat) : Except (ErrKind × Nat) (Nat × Nat) :=
  if 30 ≤ d then .error (.invalidSymbol, p)
  else if distExtra d ≠ 0 ∧ limit < p + distExtra d then .error (.unexpectedEndOfStream, p)
  else if c < distBase d + bitsLsb m p (distExtra d) then .error (.invalidBackReference, p + distExtra d)
  else .ok (distBase d + bitsLsb m p (distExtra d), p + distExtra d)

/-- A match of the length symbol `sym`, its extra bits at the cursor `p`: length, distance and cursor after it, or the
error and its place. -/
def matchAt (T : Table) (m : Memory) (limit c sym p : Nat) : Except (ErrKind × Nat) (Nat × Nat × Nat) :=
  if lengthExtra sym ≠ 0 ∧ limit < p + lengthExtra sym then .error (.unexpectedEndOfStream, p)
  else
    match decodeSymAt T m limit (p + lengthExtra sym) with
    | .error r => .error (.unexpectedEndOfStream, r.pos)
    | .ok (d, r) => (distanceAt m limit c d r.pos).map fun x => (lengthBase sym + bitsLsb m p (lengthExtra sym), x)

/-- What `matchAt` says of the core's rule: the copy, or the failed state. -/
def Res.OfMatch (s : State) (r : Res Unit) : Except (ErrKind × Nat) (Nat × Nat × Nat) → Prop
  | .ok (len, dist, p) => ∃ w, r = .ok () (copyBytes dist len ((s.setPos p).setWork w))
  | .error (k, p) => Res.FailsAt s r k p

theorem Res.OfMatch.of_written {s : State} {r : Res Unit} {e : Except (ErrKind × Nat) (Nat × Nat × Nat)} (p : Nat)
    (w : Work) (h : Res.OfMatch ((s.setPos p).setWork w) r e) : Res.OfMatch s r e := by
  cases e with
  | ok x => exact h
  | error x => exact h

theorem ruleDistSym_ofMatch (d : Nat) (s : State) :
    Res.OfMatch s (ruleDistSym d s)
      ((distanceAt s.inMem (8 * s.inLen) s.outCount d s.pos).map fun x => (s.work.len, x)) := by
  unfold distanceAt
  split
  next hres =>
    rw [ruleDistSym_of_ge hres]
    exact ⟨s.work, rfl⟩
  next hres =>
  rw [ruleDistSym_of_lt (Nat.not_le.mp hres)]
  split
  next hcut =>
    rw [ruleDist_of_cut hcut.1 hcut.2]
    exact ⟨s.work, rfl⟩
  split
  next hfar =>
    rw [ruleDist_of_far (by omega) hfar]
    exact ⟨_, rfl⟩
  next hfar =>
    rw [ruleDist_of_le (by omega) (Nat.not_lt.mp hfar)]
    exact ⟨_, rfl⟩

theorem ruleMatch_ofMatch (sym : Nat) (s : State) :
    Res.OfMatch s (ruleMatch sym s) (matchAt s.dt s.inMem (8 * s.inLen) s.outCount sym s.pos) := by
  unfold matchAt
  split
  next hcut =>
    rw [ruleMatch_of_cut hcut.1 hcut.2]
    exact ⟨s.work, rfl⟩
  · cases hd : decodeSymAt s.dt s.inMem (8 * s.inLen) (s.pos + lengthExtra sym) with
    | error r =>
      rw [ruleMatch_of_error (by omega) hd]
      exact ⟨_, rfl⟩
    | ok x =>
      obtain ⟨d, r⟩ := x
      rw [ruleMatch_of_ok (by omega) hd]
      exact Res.OfMatch.of_written r.pos ((s.withLength sym).withDistSymbol d r).work (ruleDistSym_ofMatch d _)

/-- The kinds of error the core raises (60_exceptions.md R261; 43_codelength_rle.md R187). -/
abbrev ErrKind.raised (k : ErrKind) : Prop := k ≠ .noError ∧ k ≠ .malformedHeader ∧ k ≠ .invalidEncoding

/-- How a match from the cursor `p` may end: in a copy from inside the output, or in an error. `c` is `out_count`. -/
def MatchEnds (limit c p : Nat) : Except (ErrKind × Nat) (Nat × Nat × Nat) → Prop
  | .ok (_, dist, q) => 1 ≤ dist ∧ dist ≤ c ∧ p ≤ q ∧ q ≤ limit
  | .error (k, q) => k.raised ∧ p ≤ q

theorem MatchEnds.of_later {limit c p p' : Nat} {e : Except (ErrKind × Nat) (Nat × Nat × Nat)}
    (h : MatchEnds limit c p' e) (hp : p ≤ p') : MatchEnds limit c p e := by
  cases e with
  | ok x =>
    obtain ⟨h1, hc, hq, hle⟩ := h
    exact ⟨h1, hc, Nat.le_trans hp hq, hle⟩
  | error x => exact ⟨h.1, Nat.le_trans hp h.2⟩

theorem distanceAt_ends {m : Memory} {limit c d p : Nat} (len : Nat) (hp : p ≤ limit) :
    MatchEnds limit c p ((distanceAt m limit c d p).map fun x => (len, x)) := by
  unfold distanceAt
  split
  · exact ⟨by decide, Nat.le_refl p⟩
  next hres =>
  split
  · exact ⟨by decide, Nat.le_refl p⟩
  split
  · exact ⟨by decide, Nat.le_add_right _ _⟩
  · have h1 := distBase_pos (Nat.not_le.mp hres)
    exact ⟨by omega, by omega, Nat.le_add_right _ _, by omega⟩

theorem matchAt_ends (T : Table) (m : Memory) (limit c sym p : Nat) :
    MatchEnds limit c p (matchAt T m limit c sym p) := by
  unfold matchAt
  split
  · exact ⟨by decide, Nat.le_refl p⟩
  · cases hd : decodeSymAt T m limit (p + lengthExtra sym) with
    | error r =>
      have hr := decodeSymAt_error hd
      exact ⟨by decide, by omega⟩
    | ok x =>
      obtain ⟨d, r⟩ := x
      obtain ⟨hlt, hle, -⟩ := decodeSymAt_ok hd
      exact (distanceAt_ends _ hle).of_later (by omega)

/-! ## The dynamic setup on the input: where it ends -/

theorem Table.fits_mono {T : Table} {n n' : Nat} (h : Table.fits T n = true) (hn : n ≤ n') : Table.fits T n' = true := by
  simp only [Table.fits, List.all_eq_true, Bool.and_eq_true, decide_eq_true_eq] at h ⊢
  exact fun c hc => ⟨(h c hc).1, Nat.lt_of_lt_of_le (h c hc).2 hn⟩

theorem ErrKind.ofRun.raised {k : ErrKind} (h : k.ofRun) : k.raised := by
  obtain rfl | rfl := h <;> decide

/-- How the setup from the cursor `p` may end: with tables for `nl` and `nd` symbols, the cursor moved on, not beyond the
end of the input, or in an error. -/
def SetupEnds (limit nl nd p : Nat) : Except (ErrKind × Nat) (Table × Table × Nat) → Prop
  | .ok (L, D, q) => Table.fits L nl = true ∧ Table.fits D nd = true ∧ p ≤ q ∧ q ≤ max p limit
  | .error (k, q) => k.raised ∧ p ≤ q

theorem SetupEnds.of_later {limit nl nd p p' : Nat} {e : Except (ErrKind × Nat) (Table × Table × Nat)}
    (h : SetupEnds limit nl nd p' e) (hp : p ≤ p') (hlimit : p' ≤ max p limit) : SetupEnds limit nl nd p e := by
  cases e with
  | ok x =>
    obtain ⟨hL, hD, hq, hle⟩ := h
    exact ⟨hL, hD, by omega, by omega⟩
  | error x => exact ⟨h.1, Nat.le_trans hp h.2⟩

theorem bothTables_ends (ll dl : List Nat) (limit p : Nat) :
    SetupEnds limit ll.length dl.length p (bothTables ll dl p) := by
  unfold bothTables
  split
  · rename_i hL hD
    exact ⟨build_fits hL, build_fits hD, Nat.le_refl p, Nat.le_max_left p limit⟩
  · exact ⟨by decide, Nat.le_refl p⟩

theorem secondRunAt_ends (M : Table) (m : Memory) (limit nd : Nat) (ll : List Nat) (p : Nat) :
    SetupEnds limit ll.length nd p (secondRunAt M m limit nd ll p) := by
  unfold secondRunAt
  have hends := expandRun_whole_ends M nd m limit p
  cases hdl : expandRun M nd m limit nd [] p with
  | error e =>
    rw [hdl] at hends
    exact ⟨hends.1.raised, hends.2.1⟩
  | ok x =>
    rw [hdl] at hends
    obtain ⟨rfl, hp, hle⟩ := hends
    exact (bothTables_ends ll x.1 limit x.2).of_later hp hle

theorem dynamicRunsAt_ends (M : Table) (m : Memory) (limit nl nd p : Nat) :
    SetupEnds limit nl nd p (dynamicRunsAt M m limit nl nd p) := by
  unfold dynamicRunsAt
  have hends := expandRun_whole_ends M nl m limit p
  cases hll : expandRun M nl m limit nl [] p with
  | error e =>
    rw [hll] at hends
    exact ⟨hends.1.raised, hends.2.1⟩
  | ok x =>
    rw [hll] at hends
    obtain ⟨rfl, hp, hle⟩ := hends
    exact (secondRunAt_ends M m limit nd x.1 x.2).of_later hp hle

theorem SetupEnds.mono {limit nl nl' nd nd' p : Nat} {e : Except (ErrKind × Nat) (Table × Table × Nat)}
    (h : SetupEnds limit nl nd p e) (hnl : nl ≤ nl') (hnd : nd ≤ nd') : SetupEnds limit nl' nd' p e := by
  cases e with
  | ok x =>
    obtain ⟨hL, hD, hq⟩ := h
    exact ⟨Table.fits_mono hL hnl, Table.fits_mono hD hnd, hq⟩
  | error x => exact h

/-- A header's counts ask for no more lengths than the alphabets have symbols (30_encoding.md R94). -/
theorem dynamicSetupAt_ends (m : Memory) (limit p : Nat) :
    SetupEnds limit Config.litLenMax Config.distMax p (dynamicSetupAt m limit p) := by
  have hnl : bitsLsb m p 5 + 257 ≤ Config.litLenMax := by
    have := bitsLsb_lt m p 5
    simp only [Config.litLenMax]; omega
  have hnd : bitsLsb m (p + 5) 5 + 1 ≤ Config.distMax := by
    have := bitsLsb_lt m (p + 5) 5
    simp only [Config.distMax]; omega
  unfold dynamicSetupAt
  dsimp only
  split
  · have hcut : p ≤ cutCountAt limit p := by
      unfold cutCountAt
      repeat' split
      all_goals omega
    exact ⟨by decide, hcut⟩
  split
  · exact ⟨by decide, by omega⟩
  · unfold afterMetaLengths
    split
    · exact ⟨by decide, by omega⟩
    · exact ((dynamicRunsAt_ends _ m limit _ _ _).mono hnl hnd).of_later (by omega) (by omega)

end Machine
end Sys2Proof
end

section
/-! PROOFS. What a step can do, said once (44_block.md R200, R201, R213): `Move` lists the ways a step of a run changes the
state, and `step_move` reads each of them off the rule of its phase. -/

namespace Sys2Proof

namespace Machine

/-! ## Appending -/

/-- `t` is `s` with some bytes appended (00_scope.md R11). -/
inductive Appends : State → State → Prop where
  | none (s : State) : Appends s s
  | more {s t : State} (b : Byte) (h : Appends (s.outAppend b) t) : Appends s t

theorem copyBytes_appends (dist n : Nat) (s : State) : Appends s (copyBytes dist n s) := by
  induction n generalizing s with
  | zero => exact .none s
  | succ n ih => exact .more _ (ih _)

theorem Appends.frame {s t : State} (h : Appends s t) :
    t = { s with out := t.out, outCount := t.outCount, win := t.win, wp := t.wp } := by
  induction h with
  | none s => rfl
  | more b _ ih => exact ih

/-! ## The moves -/

/-- The block type and the setup phase that a header goes to (44_block.md R201). -/
abbrev SetupPhase (b : BitVec 2) (q : Phase) : Prop :=
  b = 0 ∧ q = .stored ∨ b = 1 ∧ q = .fixedTables ∨ b = 2 ∧ q = .dynamicTables

/-- The ways a step of a run changes the state. -/
inductive Move (s : State) : State → Prop where
  /-- The step raises; a header step may have latched a flag and a type before (60_exceptions.md R266). -/
  | fails {k : ErrKind} {p : Nat} {f : Bool} {b : BitVec 2} {w : Work} (hbusy : s.busy = true)
      (hphase : s.phase ≠ .fixedTables) (hk : k.raised) (hp : s.pos ≤ p) :
      Move s { s.failedAt k p with bfinal := f, btype := b, work := w }
  /-- A header of a type that has a setup phase (R201). -/
  | header {f : Bool} {b : BitVec 2} {q : Phase} (hphase : s.phase = .awaitingHeader) (hq : SetupPhase b q)
      (hle : s.pos + 3 ≤ 8 * s.inLen) : Move s { s with pos := s.pos + 3, bfinal := f, btype := b, phase := q }
  /-- LEN and NLEN (R206). -/
  | storedSetup {n : Nat} {w : Work} (hphase : s.phase = .stored) (hn : n < 65536)
      (hle : alignUp s.pos + 32 ≤ 8 * s.inLen) :
      Move s { s with pos := alignUp s.pos + 32, rawRem := n, phase := .decoding, work := w }
  /-- The constant tables (R208). -/
  | fixedSetup (hphase : s.phase = .fixedTables) :
      Move s { s with lt := fixedLitLen, dt := fixedDist, phase := .decoding }
  /-- The header's own tables (R210). -/
  | dynamicSetup {p : Nat} {L D : Table} {w : Work} (hphase : s.phase = .dynamicTables)
      (hL : Table.fits L Config.litLenMax = true) (hD : Table.fits D Config.distMax = true) (hp : s.pos ≤ p)
      (hle : p ≤ max s.pos (8 * s.inLen)) : Move s { s with pos := p, lt := L, dt := D, phase := .decoding, work := w }
  /-- A raw byte, a literal or a match: the cursor moves on, bytes are appended (R207; 45_inflate.md R232, R234). -/
  | body {p r : Nat} {w : Work} {o v : Memory} {c x : Nat} (hphase : s.phase = .decoding) (hr : r ≤ s.rawRem)
      (hp : s.pos < p) (hle : p ≤ 8 * s.inLen) (haligned : s.btype = 0 → p = s.pos + 8)
      (happ : Appends { s with pos := p, rawRem := r, work := w }
        { s with pos := p, rawRem := r, work := w, out := o, outCount := c, win := v, wp := x }) :
      Move s { s with pos := p, rawRem := r, work := w, out := o, outCount := c, win := v, wp := x }
  /-- The end of a block (R202). -/
  | blockEnd {p : Nat} {w : Work} (hphase : s.phase = .decoding) (hp : s.pos ≤ p) (hle : p = s.pos ∨ p ≤ 8 * s.inLen) :
      Move s ((s.setPos p).setWork w).endOfBlock

/-- `Move.body` for a state that is given by what was appended. -/
theorem Move.of_appends {s t : State} {p r : Nat} {w : Work} (hphase : s.phase = .decoding) (hr : r ≤ s.rawRem)
    (hp : s.pos < p) (hle : p ≤ 8 * s.inLen) (haligned : s.btype = 0 → p = s.pos + 8)
    (happ : Appends { s with pos := p, rawRem := r, work := w } t) : Move s t := by
  have hframe := happ.frame
  rw [hframe] at happ ⊢
  exact .body hphase hr hp hle haligned happ

/-! ## Every step is a move -/

/-- What the element of a literal/length symbol does (45_inflate.md R231). -/
theorem exec_of_llsym {n : Nat} {i : Instr} (hi : decodeNumber .llsym n = some i) :
    (∃ b, ∀ s, exec i s = .next (s.outAppend b)) ∨ (∀ s, exec i s = .next s.endOfBlock) ∨
      (∃ sym, ∀ s, exec i s = (ruleMatch sym s).toOutcome) ∨ (∀ s, exec i s = .next (s.raise .invalidSymbol)) := by
  have hn : n < 288 := by
    obtain ⟨-, hnone⟩ | ⟨-, hlt, -⟩ := decodeNumber_cases (f := .llsym) (by decide) n
    · simp [hnone] at hi
    · exact hlt
  by_cases hlit : n ≤ 255
  · rw [decodeNumber, if_pos hlit, Option.some.injEq] at hi
    subst hi
    exact .inl ⟨_, fun _ => rfl⟩
  · by_cases hlen : 257 ≤ n ∧ n ≤ 285
    · exact .inr (.inr (.inl ⟨n, exec_of_length hlen.1 hlen.2 hi⟩))
    · obtain rfl | rfl | rfl : n = 256 ∨ n = 286 ∨ n = 287 := by omega
      · obtain rfl := Option.some.inj hi
        exact .inr (.inl fun _ => rfl)
      · obtain rfl := Option.some.inj hi
        exact .inr (.inr (.inr fun _ => rfl))
      · obtain rfl := Option.some.inj hi
        exact .inr (.inr (.inr fun _ => rfl))

variable {s t : State}

theorem busy_of_phase {p : Phase} (h : s.phase = p) (hp : p.busy = true) : s.busy = true := by
  rw [State.busy, h]; exact hp

/-- The outcome is a next state, and a move leads to it. -/
def Moves (s : State) (o : Host.Outcome State Fault Refusal) : Prop := ∃ t, o = .next t ∧ Move s t

theorem Moves.move {o : Host.Outcome State Fault Refusal} (h : Moves s o) (ho : o = .next t) : Move s t := by
  obtain ⟨u, hu, hmove⟩ := h
  exact Host.Outcome.next.inj (hu.symm.trans ho) ▸ hmove

theorem Moves.answers {o : Host.Outcome State Fault Refusal} (h : Moves s o) : ∃ t, o = .next t :=
  h.imp fun _ ht => ht.1

theorem Moves.of_failsAt {r : Res Unit} {k : ErrKind} {p : Nat} (h : Res.FailsAt s r k p) (hbusy : s.busy = true)
    (hphase : s.phase ≠ .fixedTables) (hk : k.raised) (hp : s.pos ≤ p) : Moves s r.toOutcome := by
  obtain ⟨w, hw⟩ := h.next
  exact ⟨_, hw, .fails hbusy hphase hk hp⟩

theorem header_moves (hq : s.quiet) (hphase : s.phase = .awaitingHeader) : Moves s (step s) := by
  have hbusy := busy_of_phase hphase rfl
  have hne : s.phase ≠ .fixedTables := by rw [hphase]; decide
  obtain ⟨hnone, hflag, hthere⟩ := headerStep s hq hphase
  by_cases hbit : s.pos + 1 ≤ 8 * s.inLen
  · by_cases hall : s.pos + 3 ≤ 8 * s.inLen
    · refine ⟨_, hthere hall, ?_⟩
      dsimp only
      split
      next h0 => rw [h0]; exact .header hphase (by decide) hall
      split
      next h1 => rw [h1]; exact .header hphase (by decide) hall
      split
      next h2 => rw [h2]; exact .header hphase (by decide) hall
      · exact .fails hbusy hne (by decide) (Nat.le_add_right _ _)
    · exact ⟨_, hflag hbit (by omega), .fails hbusy hne (by decide) (Nat.le_add_right _ _)⟩
  · exact ⟨_, hnone (by omega), .fails hbusy hne (by decide) (Nat.le_refl _)⟩

theorem storedSetup_moves (f : Bool) (hphase : s.phase = .stored) : Moves s (exec (.blockStored f) s) := by
  have hbusy := busy_of_phase hphase rfl
  have hne : s.phase ≠ .fixedTables := by rw [hphase]; decide
  have hup := le_alignUp s.pos
  obtain ⟨hnone, hlen, hthere⟩ := storedHeaderStep f s hphase
  by_cases hbits : alignUp s.pos + 16 ≤ 8 * s.inLen
  · by_cases hall : alignUp s.pos + 32 ≤ 8 * s.inLen
    · refine ⟨_, hthere hall, ?_⟩
      dsimp only
      split
      · exact .storedSetup hphase (bitsLsb_lt s.inMem _ 16) hall
      · exact .fails hbusy hne (by decide) (by omega)
    · exact ⟨_, hlen hbits (by omega), .fails hbusy hne (by decide) (by omega)⟩
  · exact ⟨_, hnone (by omega), .fails hbusy hne (by decide) hup⟩

theorem fixedSetup_moves (f : Bool) (hphase : s.phase = .fixedTables) : Moves s (exec (.blockFixed f) s) :=
  ⟨_, fixedSetupStep f s hphase, .fixedSetup hphase⟩

theorem dynamicSetup_moves (f : Bool) (hphase : s.phase = .dynamicTables) : Moves s (exec (.blockDynamic f) s) := by
  have hends := dynamicSetupAt_ends s.inMem (8 * s.inLen) s.pos
  cases hsetup : dynamicSetupAt s.inMem (8 * s.inLen) s.pos with
  | ok x =>
    rw [hsetup] at hends
    obtain ⟨hL, hD, hp, hle⟩ := hends
    obtain ⟨t, ht, hts⟩ := exec_dynamicSetup_of_ok f hphase hsetup
    rw [hts] at ht
    exact ⟨_, ht, .dynamicSetup hphase hL hD hp hle⟩
  | error x =>
    rw [hsetup] at hends
    obtain ⟨t, ht, hts⟩ := exec_dynamicSetup_of_error f hphase hsetup
    rw [hts] at ht
    exact ⟨_, ht, .fails (busy_of_phase hphase rfl) (by rw [hphase]; decide) hends.1 hends.2⟩

theorem raw_moves (hphase : s.phase = .decoding) : Moves s (exec .raw s) := by
  rw [exec_raw]
  by_cases hzero : s.rawRem = 0
  · rw [ruleRaw_of_zero hzero]
    exact ⟨_, rfl, .blockEnd (p := s.pos) (w := s.work) hphase (Nat.le_refl _) (.inl rfl)⟩
  · by_cases hall : s.pos + 8 ≤ 8 * s.inLen
    · rw [ruleRaw_of_le hzero hall]
      exact ⟨_, rfl, .of_appends (p := s.pos + 8) (r := s.rawRem - 1) (w := s.work) hphase (Nat.sub_le _ _) (by omega)
        hall (fun _ => rfl) (.more _ (.none _))⟩
    · rw [ruleRaw_of_gt hzero (by omega)]
      exact ⟨_, rfl, .fails (busy_of_phase hphase rfl) (by rw [hphase]; decide) (by decide) (Nat.le_refl _)⟩

/-- A body element, run just after its code. -/
theorem symbol_moves {n : Nat} {r : Reader} {i : Instr} (hphase : s.phase = .decoding)
    (hmode : s.btype = 1 ∨ s.btype = 2) (hsym : decodeSymAt s.lt s.inMem (8 * s.inLen) s.pos = .ok (n, r))
    (hi : decodeNumber .llsym n = some i) : Moves s (exec i (s.withSymbol n r)) := by
  have hbusy := busy_of_phase hphase rfl
  have hne : s.phase ≠ .fixedTables := by rw [hphase]; decide
  have haligned : ∀ p, s.btype = 0 → p = s.pos + 8 := fun p h0 => by
    rw [h0] at hmode
    exact absurd hmode (by decide)
  obtain ⟨hlt, hle, -⟩ := decodeSymAt_ok hsym
  obtain ⟨b, hlit⟩ | heob | ⟨sym, hmatch⟩ | hres := exec_of_llsym hi
  · exact ⟨_, hlit _, .of_appends hphase (Nat.le_refl _) hlt hle (haligned _) (.more b (.none _))⟩
  · exact ⟨_, heob _, .blockEnd hphase (Nat.le_of_lt hlt) (.inr hle)⟩
  · rw [hmatch]
    have hrule := ruleMatch_ofMatch sym (s.withSymbol n r)
    have hends := matchAt_ends (s.withSymbol n r).dt (s.withSymbol n r).inMem (8 * (s.withSymbol n r).inLen)
      (s.withSymbol n r).outCount sym (s.withSymbol n r).pos
    cases hat : matchAt (s.withSymbol n r).dt (s.withSymbol n r).inMem (8 * (s.withSymbol n r).inLen)
        (s.withSymbol n r).outCount sym (s.withSymbol n r).pos with
    | ok x =>
      rw [hat] at hrule hends
      obtain ⟨w, hrule⟩ := hrule
      obtain ⟨-, -, hp, hlimit⟩ := hends
      rw [hrule]
      exact ⟨_, rfl, .of_appends hphase (Nat.le_refl _) (Nat.lt_of_lt_of_le hlt hp) hlimit (haligned _) (copyBytes_appends _ _ _)⟩
    | error x =>
      rw [hat] at hrule hends
      exact Moves.of_failsAt (s := s) hrule hbusy hne hends.1 (Nat.le_trans (Nat.le_of_lt hlt) hends.2)
  · exact ⟨_, hres _, .fails hbusy hne (by decide) (Nat.le_of_lt hlt)⟩

/-- The symbol step moves, but for a symbol of no element, which only a table of another alphabet gives. -/
theorem huffman_moves (hq : s.quiet) (hphase : s.phase = .decoding) (hmode : s.btype = 1 ∨ s.btype = 2) :
    Moves s (step s) ∨ ∃ n r, decodeSymAt s.lt s.inMem (8 * s.inLen) s.pos = .ok (n, r) ∧
      decodeNumber .llsym n = none ∧ step s = .fault (.noElement .llsym n) := by
  rw [step_of_huffman hq hphase hmode]
  cases hsym : decodeSymAt s.lt s.inMem (8 * s.inLen) s.pos with
  | error r =>
    have hend : s.pos ≤ r.pos := by
      have := decodeSymAt_error hsym
      omega
    rw [fetchSymbol_of_error hsym]
    exact .inl ⟨_, rfl, .fails (busy_of_phase hphase rfl) (by rw [hphase]; decide) (by decide) hend⟩
  | ok x =>
    obtain ⟨n, r⟩ := x
    cases hi : decodeNumber .llsym n with
    | none => exact .inr ⟨n, r, rfl, hi, by rw [fetchSymbol_of_none hsym hi]; rfl⟩
    | some i =>
      rw [fetchSymbol_of_ok hsym hi]
      exact .inl (symbol_moves hphase hmode hsym hi)

/-- Every step of a run is a move. -/
theorem step_move (hq : s.quiet) (h : step s = .next t) : Move s t := by
  cases hphase : s.phase with
  | awaitingHeader => exact (header_moves hq hphase).move h
  | stored => exact (storedSetup_moves _ hphase).move (step_of_stored hq hphase ▸ h)
  | fixedTables => exact (fixedSetup_moves _ hphase).move (step_of_fixedTables hq hphase ▸ h)
  | dynamicTables => exact (dynamicSetup_moves _ hphase).move (step_of_dynamicTables hq hphase ▸ h)
  | decoding =>
    obtain hraw | hhuffman | hreserved := btype_cases s.btype
    · exact (raw_moves hphase).move (step_of_raw hq hphase hraw ▸ h)
    · obtain hmoves | ⟨n, r, -, -, hfault⟩ := huffman_moves hq hphase hhuffman
      · exact hmoves.move h
      · rw [hfault] at h; simp at h
    · rw [step_of_reserved hq hphase hreserved] at h; simp at h
  | idle => rw [step_of_ended hq (.inl hphase)] at h; simp at h
  | done => rw [step_of_ended hq (.inr (.inl hphase))] at h; simp at h
  | failed => rw [step_of_ended hq (.inr (.inr hphase))] at h; simp at h

end Machine
end Sys2Proof
end

section
/-! PROOFS. The invariants of a run, each read off the moves (10_state.md R23 to R31; 44_block.md R200, R213;
60_exceptions.md R266). -/

namespace Sys2Proof

namespace Machine

variable {s t : State}

/-! ## What an append keeps -/

theorem Appends.memoryOk (h : Appends s t) (hs : s.memoryOk) : t.memoryOk := by
  induction h with
  | none s => exact hs
  | more b _ ih => exact ih (State.outAppend_memoryOk b hs)

/-- An append leaves the bytes of the output below its end as they were (20_memory.md R74). -/
theorem Appends.out_kept (h : Appends s t) (hs : Memory.wf s.out = true) :
    s.outCount ≤ t.outCount ∧ ∀ a, a < s.outCount → Memory.read t.out a = Memory.read s.out a := by
  induction h with
  | none s => exact ⟨Nat.le_refl _, fun _ _ => rfl⟩
  | more b _ ih =>
    obtain ⟨hcount, hread⟩ := ih (Memory.wf_write _ _ hs)
    rw [State.outAppend_outCount] at hcount hread
    refine ⟨by omega, fun a ha => ?_⟩
    rw [hread a (by omega), State.outAppend_out, Memory.read_write _ _ _ hs, if_neg (by omega)]

/-- One append keeps the window a view of the output: at distance 1 both read the new byte, farther back each reads what it
read at one less before. -/
theorem State.outAppend_windowAgrees (b : Byte) (hs : s.memoryOk) (h : s.windowAgrees) :
    (s.outAppend b).windowAgrees := by
  obtain ⟨-, hout, hwin, -, -, hwp⟩ := hs
  obtain ⟨hcount, hread⟩ := h
  simp only [Config.windowSize] at hwp hcount hread
  refine ⟨?_, fun d h1 hd hw => ?_⟩
  · simp only [State.outAppend_wp, State.outAppend_outCount, Config.windowSize]; omega
  · simp only [State.winRead, State.backRead, State.outAppend_wp, State.outAppend_win, State.outAppend_out,
      State.outAppend_outCount, Config.windowSize, Memory.read_write _ _ _ hwin, Memory.read_write _ _ _ hout] at hd hw ⊢
    by_cases hd1 : d = 1
    · rw [if_pos (by omega), if_pos (by omega)]
    · have hold := hread (d - 1) (by omega) (by omega) (by omega)
      have hplace : ((s.wp + 1) % 32768 + 32768 - d) % 32768 = (s.wp + 32768 - (d - 1)) % 32768 := by omega
      have haddr : s.outCount + 1 - d = s.outCount - (d - 1) := by omega
      rw [if_neg (by omega), if_neg (by omega), hplace, haddr]
      exact hold

theorem Appends.windowAgrees (h : Appends s t) (hs : s.memoryOk) (hw : s.windowAgrees) : t.windowAgrees := by
  induction h with
  | none s => exact hw
  | more b _ ih => exact ih (State.outAppend_memoryOk b hs) (State.outAppend_windowAgrees b hs hw)

/-! ## What every move keeps -/

theorem Move.memoryOk (h : Move s t) (hs : s.memoryOk) : t.memoryOk := by
  cases h with
  | body _ _ _ _ _ happ => exact happ.memoryOk hs
  | blockEnd => simpa [State.memoryOk] using hs
  | _ => exact hs

theorem Move.windowAgrees (h : Move s t) (hs : s.memoryOk) (hw : s.windowAgrees) : t.windowAgrees := by
  cases h with
  | body _ _ _ _ _ happ => exact happ.windowAgrees hs hw
  | blockEnd => simpa [State.windowAgrees, State.winRead, State.backRead] using hw
  | _ => exact hw

theorem Move.out_kept (h : Move s t) (hs : s.memoryOk) :
    s.outCount ≤ t.outCount ∧ ∀ a, a < s.outCount → Memory.read t.out a = Memory.read s.out a := by
  obtain ⟨-, hout, -⟩ := hs
  cases h with
  | body _ _ _ _ _ happ => exact happ.out_kept hout
  | blockEnd => simp
  | _ => exact ⟨Nat.le_refl _, fun _ _ => rfl⟩

theorem Move.launchParameters (h : Move s t) : t.inMem = s.inMem ∧ t.inLen = s.inLen ∧ t.start = s.start := by
  cases h with
  | blockEnd => simp
  | _ => exact ⟨rfl, rfl, rfl⟩

theorem Move.quiet (h : Move s t) (hq : s.quiet) : t.quiet := by
  cases h with
  | blockEnd => simpa [State.quiet] using hq
  | _ => exact hq

theorem Move.pos_le (h : Move s t) : s.pos ≤ t.pos := by
  cases h with
  | fails _ _ _ hp => exact hp
  | header => exact Nat.le_add_right _ _
  | storedSetup => exact Nat.le_trans (le_alignUp _) (Nat.le_add_right _ _)
  | fixedSetup => exact Nat.le_refl _
  | dynamicSetup _ _ _ hp => exact hp
  | body _ _ hp => exact Nat.le_of_lt hp
  | blockEnd _ hp => simpa using hp

theorem Phase.follows_failed {p : Phase} (hbusy : p.busy = true) (hne : p ≠ .fixedTables) :
    p.follows .failed = true := by
  revert hbusy hne
  cases p <;> decide

theorem Move.follows (h : Move s t) : s.phase.follows t.phase = true := by
  cases h with
  | fails hbusy hphase => exact Phase.follows_failed hbusy hphase
  | header hphase hq =>
    rw [hphase]
    obtain ⟨-, rfl⟩ | ⟨-, rfl⟩ | ⟨-, rfl⟩ := hq <;> rfl
  | storedSetup hphase => rw [hphase]; rfl
  | fixedSetup hphase => rw [hphase]; rfl
  | dynamicSetup hphase => rw [hphase]; rfl
  | body hphase => rw [hphase]; rfl
  | blockEnd hphase =>
    rw [State.endOfBlock_phase, hphase]
    split <;> rfl

theorem State.progress_pos (hbusy : s.busy = true) : 0 < s.progress := by
  unfold State.progress
  rw [State.busy] at hbusy
  cases hphase : s.phase with
  | idle => rw [hphase] at hbusy; simp [Phase.busy, Phase.run] at hbusy
  | done => rw [hphase] at hbusy; simp [Phase.busy, Phase.run] at hbusy
  | failed => rw [hphase] at hbusy; simp [Phase.busy, Phase.run] at hbusy
  | _ => exact Nat.succ_pos _

/-- After the end of a block a header may follow. -/
theorem State.endOfBlock_progress_le (s : State) : s.endOfBlock.progress ≤ 4 * (8 * s.inLen - s.pos) + 1 := by
  cases hfinal : s.bfinal <;> simp [State.progress, State.endOfBlock_phase, hfinal]

theorem Move.progress_lt (h : Move s t) : t.progress < s.progress := by
  cases h with
  | fails hbusy => exact State.progress_pos hbusy
  | header hphase hq hle =>
    obtain ⟨-, rfl⟩ | ⟨-, rfl⟩ | ⟨-, rfl⟩ := hq <;> simp only [State.progress, hphase] <;> omega
  | storedSetup hphase =>
    have := le_alignUp s.pos
    simp only [State.progress, hphase]; omega
  | fixedSetup hphase => simp only [State.progress, hphase]; omega
  | dynamicSetup hphase _ _ hp => simp only [State.progress, hphase]; omega
  | body hphase _ hp hle => simp only [State.progress, hphase]; omega
  | blockEnd hphase hp =>
    refine Nat.lt_of_le_of_lt (State.endOfBlock_progress_le _) ?_
    simp only [State.progress, hphase, State.setWork_pos, State.setPos_pos, State.setWork_inLen, State.setPos_inLen]
    omega

/-- An error is recorded with the cursor by the step that fails, and by no other (60_exceptions.md R266). -/
theorem Move.error_recorded (h : Move s t) :
    (t.phase = .failed → t.errPos = t.pos ∧ t.err.raised) ∧
      (t.phase ≠ .failed → t.err = s.err ∧ t.errPos = s.errPos) := by
  cases h with
  | fails _ _ hk => exact ⟨fun _ => ⟨rfl, hk⟩, fun hne => absurd rfl hne⟩
  | header hphase hq =>
    obtain ⟨-, rfl⟩ | ⟨-, rfl⟩ | ⟨-, rfl⟩ := hq <;> exact ⟨fun hf => by simp at hf, fun _ => ⟨rfl, rfl⟩⟩
  | body hphase => exact ⟨fun hf => by rw [hphase] at hf; simp at hf, fun _ => ⟨rfl, rfl⟩⟩
  | blockEnd =>
    refine ⟨fun hf => ?_, fun _ => by simp⟩
    rw [State.endOfBlock_phase] at hf
    split at hf <;> simp at hf
  | _ => exact ⟨fun hf => by simp at hf, fun _ => ⟨rfl, rfl⟩⟩

/-- Done is reached by the end of the final block only (44_block.md R202). -/
theorem Move.done_only (h : Move s t) :
    (t.phase = .done → s.phase = .decoding ∧ s.bfinal = true ∧ t.endPos = t.pos) ∧
      (t.phase ≠ .done → t.endPos = s.endPos) := by
  cases h with
  | header hphase hq =>
    obtain ⟨-, rfl⟩ | ⟨-, rfl⟩ | ⟨-, rfl⟩ := hq <;> exact ⟨fun hd => by simp at hd, fun _ => rfl⟩
  | body hphase => exact ⟨fun hd => by rw [hphase] at hd; simp at hd, fun _ => rfl⟩
  | blockEnd hphase =>
    rw [State.endOfBlock_phase, State.endOfBlock_endPos, State.endOfBlock_pos, State.setWork_bfinal, State.setPos_bfinal]
    cases hfinal : s.bfinal with
    | true => exact ⟨fun _ => ⟨hphase, rfl, rfl⟩, fun hne => absurd rfl hne⟩
    | false => exact ⟨fun hd => by simp at hd, fun _ => rfl⟩
  | _ => exact ⟨fun hd => by simp at hd, fun _ => rfl⟩

theorem fixedLitLen_fits : Table.fits fixedLitLen Config.litLenMax = true := by
  have hlength : fixedLitLenLengths.length = Config.litLenMax := by decide +kernel
  exact hlength ▸ build_fits build_fixedLitLenLengths

theorem fixedDist_fits : Table.fits fixedDist Config.distMax = true := by
  have hlength : fixedDistLengths.length = Config.distMax := by decide +kernel
  exact hlength ▸ build_fits build_fixedDistLengths

theorem Move.tablesOk (h : Move s t) (hs : s.tablesOk) : t.tablesOk := by
  cases h with
  | fixedSetup => exact ⟨fixedLitLen_fits, fixedDist_fits⟩
  | dynamicSetup _ hL hD => exact ⟨hL, hD⟩
  | blockEnd => simp [State.tablesOk, Table.fits]
  | _ => exact hs

/-! ## Consistency, phase by phase -/

theorem State.Consistent.noError (hs : s.Consistent) (h : s.phase ≠ .failed) : s.err = .noError := 
  Decidable.byContradiction fun hne => h (hs.err.mpr hne)

theorem State.Consistent.of_failed (h : s.phase = .failed) (hraw : s.rawRem < 65536) (herr : s.err ≠ .noError) :
    s.Consistent := by
  constructor <;> simp [h, hraw, herr]

/-- In Idle and Done nothing but `raw_rem` and the error matters. -/
theorem State.Consistent.of_rest (h : s.phase = .idle ∨ s.phase = .done) (hraw : s.rawRem < 65536)
    (herr : s.err = .noError) : s.Consistent := by
  obtain h | h := h <;> constructor <;> simp [h, hraw, herr]

theorem State.Consistent.of_awaitingHeader (h : s.phase = .awaitingHeader) (hraw : s.rawRem < 65536)
    (herr : s.err = .noError) (hpos : s.pos ≤ max (8 * s.start) (8 * s.inLen)) : s.Consistent := by
  refine ⟨?_, ?_, ?_, ?_, ?_, hraw, ?_, ?_, fun _ => hpos⟩ <;> simp [h, herr]

theorem State.Consistent.of_setup (h : SetupPhase s.btype s.phase) (hraw : s.rawRem < 65536) (herr : s.err = .noError)
    (hpos : s.pos ≤ 8 * s.inLen) : s.Consistent := by
  obtain ⟨hb, h⟩ | ⟨hb, h⟩ | ⟨hb, h⟩ := h <;> constructor <;> simp [hb, h, hraw, herr, hpos]

theorem State.Consistent.of_decoding (h : s.phase = .decoding) (hbody : s.btype ≠ 3)
    (haligned : s.btype = 0 → s.pos % 8 = 0) (hraw : s.rawRem < 65536) (herr : s.err = .noError)
    (hpos : s.pos ≤ 8 * s.inLen) : s.Consistent := by
  refine ⟨?_, ?_, ?_, fun _ => hbody, fun _ => haligned, hraw, ?_, fun _ => hpos, ?_⟩ <;> simp [h, herr]

theorem Move.consistent (h : Move s t) (hs : s.Consistent) : t.Consistent := by
  have hraw := hs.rawRem
  cases h with
  | fails _ _ hk => exact .of_failed rfl hraw hk.1
  | header hphase hq hle => exact .of_setup hq hraw (hs.noError (by rw [hphase]; decide)) hle
  | storedSetup hphase hn hle =>
    have hb := hs.stored hphase
    have hup := alignUp_mod s.pos
    exact .of_decoding rfl (by rw [hb]; decide) (fun _ => by simp only; omega) hn
      (hs.noError (by rw [hphase]; decide)) hle
  | fixedSetup hphase =>
    have hb := hs.fixed hphase
    exact .of_decoding rfl (by rw [hb]; decide) (fun h0 => absurd (hb.symm.trans h0) (by decide)) hraw
      (hs.noError (by rw [hphase]; decide)) (hs.inside (.inr (.inl hphase)))
  | dynamicSetup hphase _ _ _ hle =>
    have hb := hs.dynamic hphase
    exact .of_decoding rfl (by rw [hb]; decide) (fun h0 => absurd (hb.symm.trans h0) (by decide)) hraw
      (hs.noError (by rw [hphase]; decide))
      (Nat.le_trans hle (Nat.max_le.mpr ⟨hs.inside (.inr (.inr (.inl hphase))), Nat.le_refl _⟩))
  | body hphase hr _ hle hstep =>
    refine .of_decoding hphase (hs.body hphase) (fun h0 => ?_) (Nat.lt_of_le_of_lt hr hraw)
      (hs.noError (by rw [hphase]; decide)) hle
    have hpos := hs.aligned hphase h0
    obtain rfl := hstep h0
    exact (Nat.add_mod_right _ 8).trans hpos
  | blockEnd hphase hp hle =>
    have herr := hs.noError (by rw [hphase]; decide)
    have hpos := hs.inside (.inr (.inr (.inr hphase)))
    cases hfinal : s.bfinal with
    | true => exact .of_rest (.inr (by simp [State.endOfBlock_phase, hfinal])) (by simpa using hraw) (by simpa using herr)
    | false =>
      refine .of_awaitingHeader (by simp [State.endOfBlock_phase, hfinal]) (by simpa using hraw) (by simpa using herr) ?_
      simp only [State.endOfBlock_pos, State.setWork_pos, State.setPos_pos, State.endOfBlock_inLen, State.setWork_inLen,
        State.setPos_inLen]
      omega

/-! ## The host's commands -/

/-- A step runs a command or, with none pending, is a move. -/
theorem step_cases (h : step s = .next t) : s.takeCommand = some t ∨ s.quiet ∧ Move s t := by
  cases hcommand : s.takeCommand with
  | some u =>
    rw [step_of_command hcommand] at h
    exact .inl (congrArg some (Host.Outcome.next.inj h))
  | none =>
    have hq : s.quiet := by
      unfold State.takeCommand at hcommand
      split at hcommand
      · cases hcommand
      next hrst =>
      split at hcommand
      · split at hcommand <;> cases hcommand
      next hgo =>
      exact ⟨by simpa using hgo, by simpa using hrst⟩
    exact .inr ⟨hq, step_move hq h⟩

theorem takeCommand_memoryOk (h : s.takeCommand = some t) (hs : s.memoryOk) : t.memoryOk := by
  have hin := hs.1
  obtain ⟨-, rfl⟩ | ⟨-, -, -, rfl⟩ | ⟨-, -, -, rfl⟩ := State.takeCommand_cases h
  · exact ⟨hin, rfl, rfl, rfl, rfl, show 0 < Config.windowSize by decide⟩
  · exact ⟨hin, rfl, rfl, rfl, rfl, show 0 < Config.windowSize by decide⟩
  · exact hs

/-- Where no byte has been produced, the window has nothing to agree on. -/
theorem State.windowAgrees_of_empty (hcount : s.outCount = 0) (hwp : s.wp = 0) : s.windowAgrees :=
  ⟨by rw [hcount, hwp]; rfl, fun d h1 hd => by omega⟩

theorem takeCommand_windowAgrees (h : s.takeCommand = some t) (hw : s.windowAgrees) : t.windowAgrees := by
  obtain ⟨-, rfl⟩ | ⟨-, -, -, rfl⟩ | ⟨-, -, -, rfl⟩ := State.takeCommand_cases h
  · exact State.windowAgrees_of_empty rfl rfl
  · exact State.windowAgrees_of_empty rfl rfl
  · exact hw

theorem takeCommand_consistent (h : s.takeCommand = some t) (hs : s.Consistent) : t.Consistent := by
  obtain ⟨-, rfl⟩ | ⟨-, -, -, rfl⟩ | ⟨-, -, -, rfl⟩ := State.takeCommand_cases h
  · exact .of_rest (.inl rfl) (show 0 < 65536 by decide) rfl
  · exact .of_awaitingHeader rfl (show 0 < 65536 by decide) rfl (Nat.le_max_left _ _)
  · exact ⟨hs.stored, hs.fixed, hs.dynamic, hs.body, hs.aligned, hs.rawRem, hs.err, hs.inside, hs.bounded⟩

theorem takeCommand_tablesOk (h : s.takeCommand = some t) (hs : s.tablesOk) : t.tablesOk := by
  obtain ⟨-, rfl⟩ | ⟨-, -, -, rfl⟩ | ⟨-, -, -, rfl⟩ := State.takeCommand_cases h
  · exact ⟨rfl, rfl⟩
  · exact ⟨rfl, rfl⟩
  · exact hs

theorem takeCommand_launchParameters (h : s.takeCommand = some t) :
    t.inMem = s.inMem ∧ t.inLen = s.inLen ∧ t.start = s.start := by
  obtain ⟨-, rfl⟩ | ⟨-, -, -, rfl⟩ | ⟨-, -, -, rfl⟩ := State.takeCommand_cases h <;> exact ⟨rfl, rfl, rfl⟩

end Machine

open Machine

/-! ## The statements -/

/-- Settles O48. -/
theorem stepKeepsMemoryCanonical : Obligations.StepKeepsMemoryCanonical := by
  intro s t hs h
  obtain hcommand | ⟨-, hmove⟩ := step_cases h
  · exact takeCommand_memoryOk hcommand hs
  · exact hmove.memoryOk hs

/-- Settles O49. -/
theorem stepKeepsWindowView : Obligations.StepKeepsWindowView := by
  intro s t hs hw h
  obtain hcommand | ⟨-, hmove⟩ := step_cases h
  · exact takeCommand_windowAgrees hcommand hw
  · exact hmove.windowAgrees hs hw

/-- Settles O50. -/
theorem stepKeepsConsistency : Obligations.StepKeepsConsistency := by
  intro s t hs ht h
  obtain hcommand | ⟨-, hmove⟩ := step_cases h
  · exact ⟨takeCommand_consistent hcommand hs, takeCommand_tablesOk hcommand ht⟩
  · exact ⟨hmove.consistent hs, hmove.tablesOk ht⟩

/-- Settles O51. -/
theorem resetMeetsInvariants : Obligations.ResetMeetsInvariants :=
  ⟨⟨rfl, rfl, rfl, rfl, rfl, by decide⟩, State.windowAgrees_of_empty rfl rfl, .of_rest (.inl rfl) (by decide) rfl,
    rfl, rfl⟩

/-- Settles O44. -/
theorem launchParametersKept : Obligations.LaunchParametersKept := by
  intro s t h
  obtain hcommand | ⟨-, hmove⟩ := step_cases h
  · exact takeCommand_launchParameters hcommand
  · exact hmove.launchParameters

/-- Settles O41. -/
theorem phaseOrder : Obligations.PhaseOrder := fun _ _ hq h => (step_move hq h).follows

/-- Settles O42. -/
theorem cursorNeverBackward : Obligations.CursorNeverBackward := fun _ _ hq h => (step_move hq h).pos_le

/-- Settles O43. -/
theorem outputOnlyGrows : Obligations.OutputOnlyGrows := fun _ _ hq hs h => (step_move hq h).out_kept hs

/-- Settles O45. -/
theorem errorsAreRecorded : Obligations.ErrorsAreRecorded := fun _ _ hq h => (step_move hq h).error_recorded

/-- Settles O46. -/
theorem doneOnlyAfterFinalBlock : Obligations.DoneOnlyAfterFinalBlock := fun _ _ hq h => (step_move hq h).done_only

/-- Settles O52. -/
theorem stepLowersProgress : Obligations.StepLowersProgress := fun _ _ hq _ h => (step_move hq h).progress_lt

end Sys2Proof
end

section
/-! PROOFS. No element stops the machine, and every run ends (44_block.md R213; 70_reset_and_hazards.md R308). -/

namespace Sys2Proof

namespace Machine

/-! ## Every element answers a next state -/

theorem exec_header_answers {i : Instr} (h : i.format = .blkhdr) (s : State) : ∃ t, exec i s = .next t := by
  cases i with
  | blockStored f =>
    by_cases hphase : s.phase = .stored
    · exact (storedSetup_moves f hphase).answers
    · exact ⟨_, exec_blockStored_of_ne f hphase⟩
  | blockFixed f =>
    by_cases hphase : s.phase = .fixedTables
    · exact (fixedSetup_moves f hphase).answers
    · exact ⟨_, exec_blockFixed_of_ne f hphase⟩
  | blockDynamic f =>
    by_cases hphase : s.phase = .dynamicTables
    · exact (dynamicSetup_moves f hphase).answers
    · exact ⟨_, exec_blockDynamic_of_ne f hphase⟩
  | blockReserved f => exact ⟨_, exec_blockReserved f s⟩
  | _ => cases h

theorem exec_raw_answers (s : State) : ∃ t, exec .raw s = .next t := by
  rw [exec_raw]
  by_cases hzero : s.rawRem = 0
  · rw [ruleRaw_of_zero hzero]
    exact ⟨_, rfl⟩
  · by_cases hall : s.pos + 8 ≤ 8 * s.inLen
    · rw [ruleRaw_of_le hzero hall]
      exact ⟨_, rfl⟩
    · rw [ruleRaw_of_gt hzero (by omega)]
      exact ⟨_, rfl⟩

theorem exec_clsym_answers {n : Nat} {i : Instr} (hi : decodeNumber .clsym n = some i) (s : State) :
    ∃ t, exec i s = .next t := by
  obtain ⟨hexec, hlt⟩ := exec_of_clsym hi s
  have hrule := ruleClSym_ofElement (s := s) hlt
  rw [hexec]
  cases helem : elementAt s.inMem (8 * s.inLen) n s.work.arr s.pos with
  | ok x =>
    rw [helem] at hrule
    exact ⟨_, congrArg Res.toOutcome hrule⟩
  | error k =>
    rw [helem] at hrule
    exact ⟨_, congrArg Res.toOutcome hrule⟩

theorem toOutcome_ofMatch {s : State} {r : Res Unit} {e : Except (ErrKind × Nat) (Nat × Nat × Nat)}
    (h : Res.OfMatch s r e) : ∃ t, r.toOutcome = .next t := by
  cases e with
  | ok x =>
    obtain ⟨w, rfl⟩ := h
    exact ⟨_, rfl⟩
  | error x =>
    obtain ⟨w, hw⟩ := Res.FailsAt.next h
    exact ⟨_, hw⟩

theorem exec_llsym_answers {n : Nat} {i : Instr} (hi : decodeNumber .llsym n = some i) (s : State) :
    ∃ t, exec i s = .next t := by
  obtain ⟨b, hlit⟩ | heob | ⟨sym, hmatch⟩ | hres := exec_of_llsym hi
  · exact ⟨_, hlit s⟩
  · exact ⟨_, heob s⟩
  · rw [hmatch]; exact toOutcome_ofMatch (ruleMatch_ofMatch sym s)
  · exact ⟨_, hres s⟩

theorem exec_dsym_answers {n : Nat} {i : Instr} (hi : decodeNumber .dsym n = some i) (s : State) :
    ∃ t, exec i s = .next t := by
  rw [exec_of_dsym hi]; exact toOutcome_ofMatch (ruleDistSym_ofMatch n s)

/-- Only a `CL n` can be no element of the stream. -/
theorem wellFormed_or_clN (i : Instr) : i.wellFormed = true ∨ ∃ n, i = .clN n := by
  cases i with
  | clN n => exact .inr ⟨n, rfl⟩
  | _ => exact .inl rfl

end Machine

open Machine

/-- Settles O54: format by format, what the element of the number does. -/
theorem everyElementAnswersNext : Obligations.EveryElementAnswersNext := by
  intro i s
  obtain hwf | ⟨n, rfl⟩ := wellFormed_or_clN i
  · have hnumber := decodeNumber_number hwf
    cases hf : i.format with
    | blkhdr => exact exec_header_answers hf s
    | clsym => rw [hf] at hnumber; exact exec_clsym_answers hnumber s
    | llsym => rw [hf] at hnumber; exact exec_llsym_answers hnumber s
    | dsym => rw [hf] at hnumber; exact exec_dsym_answers hnumber s
    | raw =>
      rw [hf] at hnumber
      obtain rfl := Option.some.inj hnumber
      exact exec_raw_answers s
  · exact ⟨_, exec_clN n s⟩

namespace Machine

/-! ## Every run ends -/

variable {s t : State}

/-- By a table of its alphabet every symbol names an element (45_inflate.md R231). -/
theorem huffman_answers (hq : s.quiet) (hphase : s.phase = .decoding) (hmode : s.btype = 1 ∨ s.btype = 2)
    (hlt : Table.fits s.lt Config.litLenMax = true) : ∃ t, step s = .next t := by
  obtain hmoves | ⟨n, r, hsym, hnone, -⟩ := huffman_moves hq hphase hmode
  · exact hmoves.answers
  · have hn : n < 288 := lookupCode_lt hlt (decodeSymAt_ok hsym).2.2.2
    obtain ⟨hle, -⟩ | ⟨i, -, hi, -⟩ := decodeNumber_cases (f := .llsym) (by decide) n
    · exact absurd hn (Nat.not_lt.mpr hle)
    · simp [hnone] at hi

/-- In a run no step of a consistent state stops the machine. -/
theorem busy_step_answers (hq : s.quiet) (hbusy : s.busy = true) (hs : s.Consistent) (ht : s.tablesOk) :
    ∃ t, step s = .next t := by
  cases hphase : s.phase with
  | awaitingHeader => exact (header_moves hq hphase).answers
  | stored => rw [step_of_stored hq hphase]; exact everyElementAnswersNext _ s
  | fixedTables => rw [step_of_fixedTables hq hphase]; exact everyElementAnswersNext _ s
  | dynamicTables => rw [step_of_dynamicTables hq hphase]; exact everyElementAnswersNext _ s
  | decoding =>
    obtain hraw | hhuffman | hreserved := btype_cases s.btype
    · rw [step_of_raw hq hphase hraw]; exact everyElementAnswersNext _ s
    · exact huffman_answers hq hphase hhuffman ht.1
    · exact absurd hreserved (hs.body hphase)
  | _ => rw [State.busy, hphase] at hbusy; exact absurd hbusy (by decide)

/-- A step of a run ends it or leaves it in progress (44_block.md R200). -/
theorem Move.ended_or_busy (h : Move s t) : t.ended = true ∨ t.busy = true := by
  have hfollows := h.follows
  rw [State.ended, State.busy]
  revert hfollows
  cases s.phase <;> cases t.phase <;> decide

end Machine

/-- Settles O53: by induction on the bound, since every step answers and lowers `progress` (O52). -/
theorem everyRunEnds : Obligations.EveryRunEnds := by
  suffices h : ∀ k s, s.progress ≤ k → s.quiet → s.busy = true → s.Consistent → s.tablesOk →
      ∃ n t, n ≤ s.progress ∧ Sys2Proof.core.run n s = .next t ∧ t.ended = true from
    fun s => h s.progress s (Nat.le_refl _)
  intro k
  induction k with
  | zero =>
    intro s hk _ hbusy
    have := State.progress_pos hbusy
    omega
  | succ k ih =>
    intro s hk hq hbusy hs ht
    obtain ⟨u, hu⟩ := busy_step_answers hq hbusy hs ht
    have hmove := step_move hq hu
    have hless := hmove.progress_lt
    obtain hended | hbusy' := hmove.ended_or_busy
    · exact ⟨1, u, State.progress_pos hbusy, (core_run_next hu).trans (core_run_zero u), hended⟩
    · obtain ⟨n, t, hn, hrun, hended⟩ := ih u (by omega) (hmove.quiet hq) hbusy' (hmove.consistent hs) (hmove.tablesOk ht)
      exact ⟨n + 1, t, by omega, (core_run_next hu).trans hrun, hended⟩

end Sys2Proof
end

section
/-! PROOFS. The host's commands and its access (70_reset_and_hazards.md R301 to R306; 10_state.md R37, R38, R41). -/

namespace Sys2Proof

open Machine

/-- Settles O55: each command is the branch of `takeCommand` that its bits select. -/
theorem hostCommands : Obligations.HostCommands := by
  intro s
  refine ⟨fun hrst => ?_, fun hrst hgo hidle => ?_, fun hrst hgo hbusy => ?_⟩
  · exact step_of_command (t := s.resetCommand) (if_pos hrst)
  · refine step_of_command (t := s.startCommand) ?_
    rw [State.busy] at hidle
    simp [State.takeCommand, hrst, hgo, hidle]
  · refine step_of_command ?_
    rw [State.busy] at hbusy
    simp [State.takeCommand, hrst, hgo, hbusy]

/-- Settles O56: the header step with no bit left (O24), on the started state. -/
theorem launchBeyondInputFails : Obligations.LaunchBeyondInputFails := by
  intro s hbeyond
  obtain ⟨hnone, -⟩ := headerStep s.startCommand ⟨rfl, rfl⟩ rfl
  refine hnone ?_
  rw [State.startCommand_pos, State.startCommand_inLen]
  omega

theorem Machine.Phase.run_lt (p : Phase) : p.run < 4 := by cases p <;> decide

theorem Machine.ErrKind.code_lt (k : ErrKind) : k.code < 16 := by cases k <;> decide

/-- STATUS as a number: RUN, and ERR sixteen places up. -/
theorem Machine.State.status_toNat (s : State) : s.status.toNat = s.phase.run + 16 * s.err.code := by
  have hrun := s.phase.run_lt
  have hcode := s.err.code_lt
  rw [State.status, BitVec.toNat_ofNat]
  exact Nat.mod_eq_of_lt (by omega)

/-- Settles O57: the fields of `status_toNat`, then the numbers phase by phase and kind by kind. -/
theorem statusFields : Obligations.StatusFields := by
  intro s
  have hrun := s.phase.run_lt
  rw [State.status_toNat]
  refine ⟨?_, by omega, ?_, ?_, ?_⟩
  · have hlow : (s.phase.run + 16 * s.err.code) % 4 = s.phase.run := by omega
    rw [hlow]
    cases s.phase <;> rfl
  · have hhigh : (s.phase.run + 16 * s.err.code) / 16 = s.err.code := by omega
    rw [hhigh]
    cases s.err <;> rfl
  · rw [State.busy]
    cases s.phase <;> decide
  · rw [State.ended]
    cases s.phase <;> decide

/-- Settles O59. -/
theorem resetValues : Obligations.ResetValues :=
  ⟨rfl, rfl, rfl, rfl, Memory.read_nil, rfl, rfl, by decide⟩

theorem Memory.read_ofBytes_of_getElem? {bs : List Byte} {k : Nat} {b : Byte} (h : bs[k]? = some b) :
    Memory.read (Memory.ofBytes bs) k = b := by
  rw [Memory.read_ofBytes, List.getD_eq_getElem?_getD, h, Option.getD_some]

theorem Memory.bytes_length (m : Memory) (a n : Nat) : (Memory.bytes m a n).length = n := by
  induction n generalizing a with
  | zero => rfl
  | succ n ih => rw [Memory.bytes, List.length_cons, ih]

theorem Memory.bytes_getElem? (m : Memory) (a : Nat) {n k : Nat} (h : k < n) :
    (Memory.bytes m a n)[k]? = some (Memory.read m (a + k)) := by
  induction n generalizing a k with
  | zero => omega
  | succ n ih =>
    cases k with
    | zero => rfl
    | succ k =>
      rw [Memory.bytes, List.getElem?_cons_succ, ih (a + 1) (Nat.lt_of_succ_lt_succ h), Nat.add_assoc, Nat.add_comm 1]

/-- Settles O58: `hostOpen` guards each access, and the result shows what the phase allows. -/
theorem hostAccess : Obligations.HostAccess := by
  intro s bs n p
  refine ⟨fun hclosed => ?_, fun hidle hgo => ?_, fun hfailed => ?_, fun hdone => ?_, fun hnf hnd => ?_⟩
  · have hshut : s.hostOpen = false := by
      rw [Bool.eq_false_iff, Ne, State.hostOpen_iff]
      rintro ⟨hb, hg⟩
      simp [hb, hg] at hclosed
    refine ⟨?_, ?_, ?_, ?_, ?_, State.hostLaunch_of_closed hshut bs p⟩
    · simp [State.hostPlaceInput, hshut]
    · simp [State.hostWriteInLen, hshut]
    · simp [State.hostWriteStart, hshut]
    · simp [State.hostReadInLen, hshut]
    · simp [State.hostReadStart, hshut]
  · have hopen : s.hostOpen = true := State.hostOpen_iff.mpr ⟨hidle, hgo⟩
    refine ⟨⟨_, if_pos hopen, rfl, fun k b => Memory.read_ofBytes_of_getElem?⟩, if_pos hopen, if_pos hopen, if_pos hopen,
      if_pos hopen, ⟨_, State.hostLaunch_of_open hopen bs p, rfl, fun k b => Memory.read_ofBytes_of_getElem?⟩⟩
  · rw [State.result, hfailed]
  · refine ⟨Memory.bytes s.out 0 s.outCount, by rw [State.result, hdone], Memory.bytes_length _ _ _, fun k hk => ?_⟩
    rw [Memory.bytes_getElem? s.out 0 hk, Nat.zero_add]
  · rw [State.result]
    cases hphase : s.phase with
    | failed => exact absurd hphase hnf
    | done => exact absurd hphase hnd
    | _ => rfl

end Sys2Proof
end

section
/-! PROOFS. The working registers are dead between steps (10_state.md R21). Each phase's step is already known as a function
of the input and of the other registers, so two states that differ in the working registers only take the same branch. -/

namespace Sys2Proof

open Machine

namespace Machine

variable {s : State} (w : Work)

theorem sameButWork_command (h : ¬ s.quiet) : sameButWork (step (s.setWork w)) (step s) := by
  obtain ⟨hreset, hstart, hdrop⟩ := hostCommands s
  obtain ⟨hreset', hstart', hdrop'⟩ := hostCommands (s.setWork w)
  cases hrst : s.ctrlRst with
  | true => rw [hreset hrst, hreset' hrst]; rfl
  | false =>
    have hgo : s.ctrlGo = true := by
      rw [← Bool.not_eq_false]
      exact fun hgo => h ⟨hgo, hrst⟩
    cases hbusy : s.busy with
    | true => rw [hdrop hrst hgo hbusy, hdrop' hrst hgo hbusy]; rfl
    | false => rw [hstart hrst hgo hbusy, hstart' hrst hgo hbusy]; rfl

theorem sameButWork_header (hq : s.quiet) (hphase : s.phase = .awaitingHeader) :
    sameButWork (step (s.setWork w)) (step s) := by
  obtain ⟨hnone, hflag, hthere⟩ := headerStep s hq hphase
  obtain ⟨hnone', hflag', hthere'⟩ := headerStep (s.setWork w) hq hphase
  by_cases hbit : s.pos + 1 ≤ 8 * s.inLen
  · by_cases hall : s.pos + 3 ≤ 8 * s.inLen
    · rw [hthere hall, hthere' hall]
      dsimp only [sameButWork, State.setWork_inMem, State.setWork_pos]
      repeat' split
      all_goals rfl
    · rw [hflag hbit (by omega), hflag' hbit (by simpa using by omega)]
      rfl
  · rw [hnone (by omega), hnone' (by simpa using by omega)]
    rfl

theorem sameButWork_stored (f : Bool) (hphase : s.phase = .stored) :
    sameButWork (exec (.blockStored f) (s.setWork w)) (exec (.blockStored f) s) := by
  obtain ⟨hnone, hlen, hthere⟩ := storedHeaderStep f s hphase
  obtain ⟨hnone', hlen', hthere'⟩ := storedHeaderStep f (s.setWork w) hphase
  by_cases hbits : alignUp s.pos + 16 ≤ 8 * s.inLen
  · by_cases hall : alignUp s.pos + 32 ≤ 8 * s.inLen
    · rw [hthere hall, hthere' hall]
      dsimp only [sameButWork, State.setWork_inMem, State.setWork_pos]
      repeat' split
      all_goals rfl
    · rw [hlen hbits (by omega), hlen' hbits (by simpa using by omega)]
      rfl
  · rw [hnone (by omega), hnone' (by simpa using by omega)]
    rfl

theorem sameButWork_fixed (f : Bool) (hphase : s.phase = .fixedTables) :
    sameButWork (exec (.blockFixed f) (s.setWork w)) (exec (.blockFixed f) s) := by
  rw [fixedSetupStep f s hphase, fixedSetupStep f (s.setWork w) hphase]
  rfl

theorem sameButWork_dynamic (f : Bool) (hphase : s.phase = .dynamicTables) :
    sameButWork (exec (.blockDynamic f) (s.setWork w)) (exec (.blockDynamic f) s) := by
  cases hsetup : dynamicSetupAt s.inMem (8 * s.inLen) s.pos with
  | ok x =>
    obtain ⟨t, ht, hts⟩ := exec_dynamicSetup_of_ok f hphase hsetup
    obtain ⟨u, hu, hus⟩ := exec_dynamicSetup_of_ok (s := s.setWork w) f hphase hsetup
    rw [ht, hu, hts, hus]
    rfl
  | error x =>
    obtain ⟨t, ht, hts⟩ := exec_dynamicSetup_of_error f hphase hsetup
    obtain ⟨u, hu, hus⟩ := exec_dynamicSetup_of_error (s := s.setWork w) f hphase hsetup
    rw [ht, hu, hts, hus]
    rfl

theorem State.endOfBlock_setWork (s : State) (w : Work) : (s.setWork w).endOfBlock = s.endOfBlock.setWork w := by
  unfold State.endOfBlock
  rw [State.setWork_bfinal]
  split <;> rfl

theorem sameButWork_raw : sameButWork (exec .raw (s.setWork w)) (exec .raw s) := by
  rw [exec_raw, exec_raw]
  by_cases hzero : s.rawRem = 0
  · rw [ruleRaw_of_zero hzero, ruleRaw_of_zero (s := s.setWork w) hzero, State.endOfBlock_setWork]
    rfl
  · by_cases hall : s.pos + 8 ≤ 8 * s.inLen
    · rw [ruleRaw_of_le hzero hall, ruleRaw_of_le (s := s.setWork w) hzero hall]
      rfl
    · rw [ruleRaw_of_gt hzero (by omega), ruleRaw_of_gt (s := s.setWork w) hzero (by simpa using by omega)]
      rfl

theorem copyBytes_setWork (dist n : Nat) (s : State) (w : Work) :
    copyBytes dist n (s.setWork w) = (copyBytes dist n s).setWork w := by
  induction n generalizing s with
  | zero => rfl
  | succ n ih => exact ih (s.outAppend (s.backRead dist))

theorem sameButWork_copy (dist n : Nat) (s : State) (v w : Work) :
    sameButWork (.next (copyBytes dist n (s.setWork v))) (.next (copyBytes dist n (s.setWork w))) := by
  rw [copyBytes_setWork, copyBytes_setWork]
  rfl

theorem sameButWork_match (sym : Nat) (s : State) (v w : Work) :
    sameButWork (ruleMatch sym (s.setWork v)).toOutcome (ruleMatch sym (s.setWork w)).toOutcome := by
  have hv := ruleMatch_ofMatch sym (s.setWork v)
  have hw := ruleMatch_ofMatch sym (s.setWork w)
  simp only [State.setWork_dt, State.setWork_inMem, State.setWork_inLen, State.setWork_outCount, State.setWork_pos] at hv hw
  cases hat : matchAt s.dt s.inMem (8 * s.inLen) s.outCount sym s.pos with
  | ok x =>
    rw [hat] at hv hw
    obtain ⟨v', hv⟩ := hv
    obtain ⟨w', hw⟩ := hw
    rw [hv, hw]
    exact sameButWork_copy x.2.1 x.1 (s.setPos x.2.2) v' w'
  | error x =>
    rw [hat] at hv hw
    obtain ⟨v', hv⟩ := Res.FailsAt.next hv
    obtain ⟨w', hw⟩ := Res.FailsAt.next hw
    rw [hv, hw]
    rfl

theorem sameButWork_symbol {n : Nat} {i : Instr} (hi : decodeNumber .llsym n = some i) (s : State) (v w : Work) :
    sameButWork (exec i (s.setWork v)) (exec i (s.setWork w)) := by
  obtain ⟨b, hlit⟩ | heob | ⟨sym, hmatch⟩ | hres := exec_of_llsym hi
  · rw [hlit, hlit]; rfl
  · rw [heob, heob, State.endOfBlock_setWork, State.endOfBlock_setWork]; rfl
  · rw [hmatch, hmatch]; exact sameButWork_match sym s v w
  · rw [hres, hres]; rfl

theorem sameButWork_huffman (hq : s.quiet) (hphase : s.phase = .decoding) (hmode : s.btype = 1 ∨ s.btype = 2) :
    sameButWork (step (s.setWork w)) (step s) := by
  rw [step_of_huffman hq hphase hmode, step_of_huffman (s := s.setWork w) hq hphase hmode]
  cases hsym : decodeSymAt s.lt s.inMem (8 * s.inLen) s.pos with
  | error r =>
    rw [fetchSymbol_of_error hsym, fetchSymbol_of_error (s := s.setWork w) hsym]
    rfl
  | ok x =>
    obtain ⟨n, r⟩ := x
    cases hi : decodeNumber .llsym n with
    | none =>
      rw [fetchSymbol_of_none hsym hi, fetchSymbol_of_none (s := s.setWork w) hsym hi]
      rfl
    | some i =>
      rw [fetchSymbol_of_ok hsym hi, fetchSymbol_of_ok (s := s.setWork w) hsym hi]
      exact sameButWork_symbol hi (s.setPos r.pos) _ _

theorem sameButWork_stop {f : Fault} {o o' : Host.Outcome State Fault Refusal} (h : o = .fault f) (h' : o' = .fault f) :
    sameButWork o o' := by
  rw [h, h']; rfl

end Machine

/-- Settles O47: phase by phase. -/
theorem workingRegistersAreDead : Obligations.WorkingRegistersAreDead := by
  intro s w
  by_cases hq : s.quiet
  · have hq' : (s.setWork w).quiet := hq
    cases hphase : s.phase with
    | awaitingHeader => exact sameButWork_header w hq hphase
    | stored =>
      rw [step_of_stored hq hphase, step_of_stored hq' hphase]
      exact sameButWork_stored w _ hphase
    | fixedTables =>
      rw [step_of_fixedTables hq hphase, step_of_fixedTables hq' hphase]
      exact sameButWork_fixed w _ hphase
    | dynamicTables =>
      rw [step_of_dynamicTables hq hphase, step_of_dynamicTables hq' hphase]
      exact sameButWork_dynamic w _ hphase
    | decoding =>
      obtain hraw | hhuffman | hreserved := btype_cases s.btype
      · rw [step_of_raw hq hphase hraw, step_of_raw hq' hphase hraw]
        exact sameButWork_raw w
      · exact sameButWork_huffman w hq hphase hhuffman
      · exact sameButWork_stop (step_of_reserved hq' hphase hreserved) (step_of_reserved hq hphase hreserved)
    | idle => exact sameButWork_stop (step_of_ended hq' (.inl hphase)) (step_of_ended hq (.inl hphase))
    | done => exact sameButWork_stop (step_of_ended hq' (.inr (.inl hphase))) (step_of_ended hq (.inr (.inl hphase)))
    | failed => exact sameButWork_stop (step_of_ended hq' (.inr (.inr hphase))) (step_of_ended hq (.inr (.inr hphase)))
  · exact sameButWork_command w hq

end Sys2Proof
end
